-- ==== Sys2Proof/Word.lean ====
section
/-!
DEFINITION. The words of the block (`00_scope.md` R6, `30_encoding.md` R61, R62) and the type of counters and
divisors with the sentinel NEVER (`00_scope.md` R6).
-/

namespace Sys2Proof

/-- A byte: an unsigned 8-bit value, bits numbered 7 down to 0 (`00_scope.md` R6). -/
abbrev Byte := BitVec 8

/-- The 17-bit transaction word of a bus operation (`30_encoding.md` R61). -/
abbrev BusWord := BitVec 17

/-- The 5-bit id of an internal event (`30_encoding.md` R62). -/
abbrev EventId := BitVec 5

/-- A number of ticks, or the sentinel NEVER, which compares greater than every natural (`00_scope.md` R6). -/
inductive Ticks where
  | at (n : Nat)
  | never
deriving DecidableEq, Repr

end Sys2Proof
end

