-- ==== Sys2Proof/Syntax.lean ====
section
/-!
DEFINITION. The operations of the block, one constructor per row of `spec/opcode_table.json` (`30_encoding.md` R71), and
the five operation formats in which they are presented (`30_encoding.md` R60 to R63).
-/

namespace Sys2Proof

/-- Which slice of an LFSR state a built table stores: the gating bit (`40_polynomial.md` R82) or the byte of the
random tables (`40_polynomial.md` R83). -/
inductive Slice where
  | gate
  | random
deriving DecidableEq, Repr

/-- The operations (`30_encoding.md` R71). Bus writes carry their data byte, even where the rule ignores it (R68). -/
inductive Instr where
  -- format BW, offsets 0x0 to 0xF (`20_memory.md` R41)
  | wAudf1 (v : Byte)
  | wAudc1 (v : Byte)
  | wAudf2 (v : Byte)
  | wAudc2 (v : Byte)
  | wAudf3 (v : Byte)
  | wAudc3 (v : Byte)
  | wAudf4 (v : Byte)
  | wAudc4 (v : Byte)
  | wAudctl (v : Byte)
  | wStimer (v : Byte)
  | wSkrest (v : Byte)
  | wPotgo (v : Byte)
  | wUnmapped (v : Byte)
  | wSerout (v : Byte)
  | wIrqen (v : Byte)
  | wSkctl (v : Byte)
  /-- The default arm of the writes: an offset of 0x10 or above (`46_register_interface.md` R216). -/
  | wOutOfRange (off : Byte) (v : Byte)
  -- format BR, offsets 0x0 to 0xF (`20_memory.md` R42); the DATA field of a read is ignored (R61)
  | rPot0
  | rPot1
  | rPot2
  | rPot3
  | rPot4
  | rPot5
  | rPot6
  | rPot7
  | rAllpot
  | rKbcode
  | rRandom
  | rUnmappedB
  | rUnmappedC
  | rSerin
  | rIrqst
  | rSkstat
  /-- The default arm of the reads: an offset of 0x10 or above (`46_register_interface.md` R216). -/
  | rOutOfRange (off : Byte)
  -- format EV, ids 0 to 17 (`30_encoding.md` R62)
  | evCh1
  | evCh2
  | evCh3
  | evCh4
  | evSample
  | evT1
  | evT2
  | evT4
  | evSerReady
  | evSerComplete
  | evPot0
  | evPot1
  | evPot2
  | evPot3
  | evPot4
  | evPot5
  | evPot6
  | evPot7
  -- formats HP and CN (`30_encoding.md` R63)
  | render (n : Nat)
  | build (n : Nat) (slice : Slice)
  | reset
deriving DecidableEq, Repr

/-- An operation as it is presented to the block (`30_encoding.md` R60): a transaction word (BW, BR), an event id (EV),
a pull (HP), a construction-time operation (CN), or bits that have none of these widths. -/
inductive Request where
  /-- Formats BW and BR (R61). -/
  | bus (word : BusWord)
  /-- Format EV (R62). -/
  | event (id : EventId)
  /-- Format HP: `RENDER n` (R63). -/
  | pull (n : Nat)
  /-- Format CN: `BUILD n` with its slice function (R63, R80). -/
  | build (n : Nat) (slice : Slice)
  /-- Format CN: `RESET` (R63). -/
  | reset
  /-- `nbits` bits `w` that are neither a 17-bit transaction word nor a 5-bit event id: no format of the spec. -/
  | malformed (nbits w : Nat)
deriving DecidableEq, Repr

end Sys2Proof
end

