-- ==== Sys2Proof/WellFormed.lean ====
section
/-!
DEFINITION. Which operations have an encoding: the restrictions the spec puts on operands beyond their widths.
-/

namespace Sys2Proof

/-- The lengths that have a polynomial table (`30_encoding.md` R63, `40_polynomial.md` R80). -/
def tableLengths : List Nat := [4, 5, 9, 17]

/-- A table exists for this length and slice: every length has a gating table (`40_polynomial.md` R82), only 9 and 17 a
random table (R83). -/
def hasTable (n : Nat) : Slice → Bool
  | .gate => tableLengths.contains n
  | .random => n == 9 || n == 17

/-- Out of range: an offset above 0x0F, that is `OFF[7:4] != 0` (`30_encoding.md` R61, R71). -/
def outOfRange (off : Byte) : Bool := decide (16 ≤ off.toNat)

/-- The checks: an out-of-range operation has an out-of-range offset, and a `BUILD` has a table to build. -/
def Instr.wellFormed : Instr → Bool
  | .wAudf1 _ | .wAudc1 _ | .wAudf2 _ | .wAudc2 _ | .wAudf3 _ | .wAudc3 _ => true
  | .wAudf4 _ | .wAudc4 _ | .wAudctl _ | .wStimer _ | .wSkrest _ | .wPotgo _ => true
  | .wUnmapped _ | .wSerout _ | .wIrqen _ | .wSkctl _ => true
  | .rPot0 | .rPot1 | .rPot2 | .rPot3 | .rPot4 | .rPot5 => true
  | .rPot6 | .rPot7 | .rAllpot | .rKbcode | .rRandom | .rUnmappedB => true
  | .rUnmappedC | .rSerin | .rIrqst | .rSkstat => true
  | .evCh1 | .evCh2 | .evCh3 | .evCh4 | .evSample | .evT1 => true
  | .evT2 | .evT4 | .evSerReady | .evSerComplete | .evPot0 | .evPot1 => true
  | .evPot2 | .evPot3 | .evPot4 | .evPot5 | .evPot6 | .evPot7 => true
  | .wOutOfRange off _ => outOfRange off
  | .rOutOfRange off => outOfRange off
  | .render _ | .reset => true
  | .build n slice => hasTable n slice

/-- An operation that has an encoding. -/
abbrev Instr.WellFormed (i : Instr) : Prop := i.wellFormed = true

end Sys2Proof
end

