-- ==== Sys2Proof/Machine/Lfsr.lean ====
section
/-!
DEFINITION. The polynomial generator (`40_polynomial.md` R80 to R84): the recurrence, its parameters, `BUILD`'s table and
the entries of the six tables. The tables are constants of the design, not state (`10_state.md` R28).
-/

namespace Sys2Proof.Machine

/-- The parameters of one recurrence (`40_polynomial.md` R80). -/
structure PolyParam where
  length : Nat
  left : Nat
  right : Nat
  add : Nat
deriving DecidableEq, Repr

/-- `POLY_PARAM(4)` (`40_polynomial.md` R81). -/
def param4 : PolyParam := { length := 4, left := 3, right := 1, add := 0x4 }
/-- `POLY_PARAM(5)` (`40_polynomial.md` R81). -/
def param5 : PolyParam := { length := 5, left := 3, right := 2, add := 0x8 }
/-- `POLY_PARAM(9)` (`40_polynomial.md` R81). -/
def param9 : PolyParam := { length := 9, left := 2, right := 7, add := 0x80 }
/-- `POLY_PARAM(17)` (`40_polynomial.md` R81). -/
def param17 : PolyParam := { length := 17, left := 7, right := 10, add := 0x18000 }

/-- `POLY_PARAM(n)`; none where no table has that length (`30_encoding.md` R63). -/
def polyParam (n : Nat) : Option PolyParam :=
  match n with
  | 4 => some param4
  | 5 => some param5
  | 9 => some param9
  | 17 => some param17
  | _ => none

/-- `POLY_LEN(n) = 2^n - 1`, the table length (`00_scope.md` R5). -/
def polyLen (n : Nat) : Nat := 2 ^ n - 1

/-- One step of the recurrence: `((x << left) + (x >> right) + add) & mask` (`40_polynomial.md` R80). -/
def lfsrNext (p : PolyParam) (x : Nat) : Nat :=
  ((x <<< p.left) + (x >>> p.right) + p.add) &&& (2 ^ p.length - 1)

/-- `x_i`: the seed 0 after `i` steps (`40_polynomial.md` R80). -/
def lfsrState (p : PolyParam) : Nat → Nat
  | 0 => 0
  | i + 1 => lfsrNext p (lfsrState p i)

/-- The random slice of the 9-bit states: the low eight bits (`40_polynomial.md` R83). -/
def slice9 (x : Nat) : Nat := x % 256

/-- The random slice of the 17-bit states: bits 13:6 (`40_polynomial.md` R83). -/
def slice17 (x : Nat) : Nat := (x >>> 6) % 256

/-- The slice function of a `BUILD` (`40_polynomial.md` R82, R83). -/
def sliceOf (n : Nat) : Slice → Nat → Nat
  | .gate, x => x % 2
  | .random, x => if n = 17 then slice17 x else slice9 x

/-- The loop of `BUILD`: store the slice, then step (`40_polynomial.md` R80). -/
def buildFrom (p : PolyParam) (slice : Nat → Nat) : Nat → Nat → List Nat
  | 0, _ => []
  | k + 1, x => slice x :: buildFrom p slice k (lfsrNext p x)

/-- `BUILD n` with slice function `slice`: `2^n - 1` entries from the seed 0 (`40_polynomial.md` R80). -/
def buildTable (p : PolyParam) (slice : Nat → Nat) : List Nat :=
  buildFrom p slice (polyLen p.length) 0

/-- The entry of a gating table: the least significant bit of the state (`40_polynomial.md` R82). -/
def gateEntry (p : PolyParam) (i : Nat) : Bool := (lfsrState p i).testBit 0

/-- `poly4[i]`. -/
def poly4 (i : Nat) : Bool := gateEntry param4 i
/-- `poly5[i]`. -/
def poly5 (i : Nat) : Bool := gateEntry param5 i
/-- `poly9[i]`. -/
def poly9 (i : Nat) : Bool := gateEntry param9 i
/-- `poly17[i]`. -/
def poly17 (i : Nat) : Bool := gateEntry param17 i

/-- `rand9[i]` (`40_polynomial.md` R83). -/
def rand9 (i : Nat) : Byte := BitVec.ofNat 8 (slice9 (lfsrState param9 i))
/-- `rand17[i]` (`40_polynomial.md` R83). -/
def rand17 (i : Nat) : Byte := BitVec.ofNat 8 (slice17 (lfsrState param17 i))

end Sys2Proof.Machine
end

