-- ==== Sys2Proof/Config.lean ====
section
/-!
DEFINITION. The implementation parameters of one chip instance (`00_scope.md` R5): the fields that are OPEN or that the
spec decides, the quantities R5 derives from them, the constraints R5 puts on them, and the spec's example values.
-/

namespace Sys2Proof

/-- The configuration record of `00_scope.md` R5, fixed for the life of a chip instance. No rule writes it. -/
structure Config where
  /-- `CLOCK`, chip-clock rate in Hz (OPEN). -/
  clock : Nat
  /-- `SAMPLE_RATE`, output sample rate in Hz (OPEN). -/
  sampleRate : Nat
  /-- `K_LO`, additive constant of the slow clock domain. -/
  kLo : Nat
  /-- `K_HI`, additive constant of the fast clock domain. -/
  kHi : Nat
  /-- `K_HI_JOINED`, additive constant of a joined pair on the fast clock. -/
  kHiJoined : Nat
  /-- `M_64K`, slow-domain divider of the 64 kHz base rate. -/
  m64k : Nat
  /-- `M_15K`, slow-domain divider of the 15 kHz base rate. -/
  m15k : Nat
  /-- `GAIN`, amplitude per volume step. -/
  gain : Nat
  /-- `TIMER_MIN`: a divisor arms a timer only when strictly greater. -/
  timerMin : Nat
  /-- `POT_UNIT_SLOW`, paddle per-unit delay in slow mode. -/
  potUnitSlow : Nat
  /-- `POT_UNIT_FAST`, paddle per-unit delay in fast mode. -/
  potUnitFast : Nat
  /-- `OPT_INAUDIBLE`, the inaudibility optimisation switch (`41_channel.md` R104). -/
  optInaudible : Bool
  /-- `KBCODE_RESET`, reset value of KBCODE. -/
  kbcodeReset : Byte
deriving DecidableEq, Repr

/-- `STEP_24_8`, the sample period in ticks as unsigned 24.8 fixed point (`00_scope.md` R5, `42_scheduler.md` R138). -/
def Config.step248 (c : Config) : Nat := c.clock * 256 / c.sampleRate

/-- `TPS`, whole ticks per sample (`00_scope.md` R5). -/
def Config.tps (c : Config) : Nat := c.step248 >>> 8

/-- `T_SER_READY`, the serial "ready" delay in ticks (`00_scope.md` R5). -/
def Config.tSerReady (c : Config) : Nat := c.clock * 200 / 1000000

/-- `T_SER_COMPLETE`, the serial "complete" delay in ticks (`00_scope.md` R5). -/
def Config.tSerComplete (c : Config) : Nat := c.clock * 2000 / 1000000

/-- The constraints a configuration must meet (`00_scope.md` R5), with the order of the two paddle units (`45_paddle.md` R198,
`93_implementation_defined.md` I6). -/
abbrev Config.Valid (c : Config) : Prop :=
  1 ≤ c.clock ∧ 1 ≤ c.sampleRate ∧ 1 ≤ c.step248 ∧
  1 ≤ c.tSerReady ∧ c.tSerReady < c.tSerComplete ∧
  1 ≤ c.potUnitFast ∧ c.potUnitFast ≤ c.potUnitSlow ∧ 1 ≤ c.potUnitSlow ∧
  1 ≤ c.kLo ∧ 1 ≤ c.kHi ∧ 1 ≤ c.kHiJoined ∧ 1 ≤ c.m64k ∧ 1 ≤ c.m15k

/-- `POT_MAX`, the largest paddle target (`00_scope.md` R5). -/
def potMax : Nat := 228

/-- `SAMPLE_MAX`, the clamp bound of one output sample (`00_scope.md` R5). -/
def sampleMax : Nat := 32767

/-- The spec's example configuration: every decided parameter at its value and the example rates 1,789,790 Hz and
44,100 Hz (`00_scope.md` R5; configuration A of `95_test_vectors.md`). DESIGN CHOICE for the two OPEN rates, log entry 3:
unsafe for statements about `State.reset` itself, which holds this record. -/
def Config.standard : Config where
  clock := 1789790
  sampleRate := 44100
  kLo := 1
  kHi := 4
  kHiJoined := 7
  m64k := 28
  m15k := 114
  gain := 744
  timerMin := 4
  potUnitSlow := 114
  potUnitFast := 16
  optInaudible := false
  kbcodeReset := 0x09#8

end Sys2Proof
end

