-- ==== Sys2Proof/Decode.lean ====
section
/-!
DEFINITION. The decoder and the encoder (`30_encoding.md` R60 to R63, R69, R71). The decoder of transaction words is total
on all 2^17 of them; reserved event ids, tables that do not exist and bits of no format are rejected by name.
-/

namespace Sys2Proof

/-- Why a request is no operation. -/
inductive DecodeError where
  /-- An event id of 18 to 31: no event has it (`30_encoding.md` R62). -/
  | reservedEvent (id : Nat)
  /-- A `BUILD` of a length and slice that has no table (`30_encoding.md` R63). -/
  | noSuchTable (n : Nat) (slice : Slice)
  /-- Bits that are neither a transaction word nor an event id (`30_encoding.md` R60). -/
  | malformedBits (nbits w : Nat)
deriving DecidableEq, Repr

/-- The `W` field, bit 16 (`30_encoding.md` R61): 1 = write. -/
def wordIsWrite (w : BusWord) : Bool := w.getLsbD 16

/-- The `OFF` field, bits 15:8 (`30_encoding.md` R61). -/
def wordOffset (w : BusWord) : Byte := w.extractLsb' 8 8

/-- The `DATA` field, bits 7:0 (`30_encoding.md` R61). -/
def wordData (w : BusWord) : Byte := w.extractLsb' 0 8

/-- The write side of the operation map (`20_memory.md` R41, `46_register_interface.md` R210). -/
def decodeWrite (off v : Byte) : Instr :=
  match off.toNat with
  | 0x0 => .wAudf1 v
  | 0x1 => .wAudc1 v
  | 0x2 => .wAudf2 v
  | 0x3 => .wAudc2 v
  | 0x4 => .wAudf3 v
  | 0x5 => .wAudc3 v
  | 0x6 => .wAudf4 v
  | 0x7 => .wAudc4 v
  | 0x8 => .wAudctl v
  | 0x9 => .wStimer v
  | 0xA => .wSkrest v
  | 0xB => .wPotgo v
  | 0xC => .wUnmapped v
  | 0xD => .wSerout v
  | 0xE => .wIrqen v
  | 0xF => .wSkctl v
  | _ => .wOutOfRange off v

/-- The read side of the operation map (`20_memory.md` R42, `46_register_interface.md` R210). -/
def decodeRead (off : Byte) : Instr :=
  match off.toNat with
  | 0x0 => .rPot0
  | 0x1 => .rPot1
  | 0x2 => .rPot2
  | 0x3 => .rPot3
  | 0x4 => .rPot4
  | 0x5 => .rPot5
  | 0x6 => .rPot6
  | 0x7 => .rPot7
  | 0x8 => .rAllpot
  | 0x9 => .rKbcode
  | 0xA => .rRandom
  | 0xB => .rUnmappedB
  | 0xC => .rUnmappedC
  | 0xD => .rSerin
  | 0xE => .rIrqst
  | 0xF => .rSkstat
  | _ => .rOutOfRange off

/-- A transaction word selects its operation by `W` and `OFF` alone (`30_encoding.md` R61). -/
def decodeBus (w : BusWord) : Instr :=
  if wordIsWrite w then decodeWrite (wordOffset w) (wordData w) else decodeRead (wordOffset w)

/-- The event ids (`30_encoding.md` R62). -/
def decodeEvent (id : EventId) : Except DecodeError Instr :=
  match id.toNat with
  | 0 => .ok .evCh1
  | 1 => .ok .evCh2
  | 2 => .ok .evCh3
  | 3 => .ok .evCh4
  | 4 => .ok .evSample
  | 5 => .ok .evT1
  | 6 => .ok .evT2
  | 7 => .ok .evT4
  | 8 => .ok .evSerReady
  | 9 => .ok .evSerComplete
  | 10 => .ok .evPot0
  | 11 => .ok .evPot1
  | 12 => .ok .evPot2
  | 13 => .ok .evPot3
  | 14 => .ok .evPot4
  | 15 => .ok .evPot5
  | 16 => .ok .evPot6
  | 17 => .ok .evPot7
  | k => .error (.reservedEvent k)

/-- The operation a request presents, or why it is none. -/
def decode : Request → Except DecodeError Instr
  | .bus w => .ok (decodeBus w)
  | .event id => decodeEvent id
  | .pull n => .ok (.render n)
  | .build n slice => if hasTable n slice then .ok (.build n slice) else .error (.noSuchTable n slice)
  | .reset => .ok .reset
  | .malformed nbits w => .error (.malformedBits nbits w)

/-- The request that `nbits` bits `w` of an operation-table row are: up to 8 bits an event id, more a transaction word,
both numbered from bit 0 (`30_encoding.md` R61, R62; the padding of a row to whole bytes must be zero). DESIGN CHOICE, log
entry 12: safe, since the spec gives no byte form of either word. -/
def requestOfBits (nbits w : Nat) : Request :=
  if nbits ≤ 8 then
    if w < 2 ^ 5 then .event (BitVec.ofNat 5 w) else .malformed nbits w
  else
    if w < 2 ^ 17 then .bus (BitVec.ofNat 17 w) else .malformed nbits w

/-- The operation the decoder reads from a table row's bits. -/
def decodeTableWord (nbits w : Nat) : Option Instr :=
  match decode (requestOfBits nbits w) with
  | .ok i => some i
  | .error _ => none

/-- The word of a bus write: `{1, OFF, DATA}` (`30_encoding.md` R61). -/
def writeWord (off v : Byte) : BusWord := 1#1 ++ off ++ v

/-- The word of a bus read: `{0, OFF, 0x00}` (`30_encoding.md` R61). -/
def readWord (off : Byte) : BusWord := 0#1 ++ off ++ 0#8

/-- The request that presents an operation (`30_encoding.md` R61 to R63, R71). -/
def encode : Instr → Request
  | .wAudf1 v => .bus (writeWord 0x00 v)
  | .wAudc1 v => .bus (writeWord 0x01 v)
  | .wAudf2 v => .bus (writeWord 0x02 v)
  | .wAudc2 v => .bus (writeWord 0x03 v)
  | .wAudf3 v => .bus (writeWord 0x04 v)
  | .wAudc3 v => .bus (writeWord 0x05 v)
  | .wAudf4 v => .bus (writeWord 0x06 v)
  | .wAudc4 v => .bus (writeWord 0x07 v)
  | .wAudctl v => .bus (writeWord 0x08 v)
  | .wStimer v => .bus (writeWord 0x09 v)
  | .wSkrest v => .bus (writeWord 0x0A v)
  | .wPotgo v => .bus (writeWord 0x0B v)
  | .wUnmapped v => .bus (writeWord 0x0C v)
  | .wSerout v => .bus (writeWord 0x0D v)
  | .wIrqen v => .bus (writeWord 0x0E v)
  | .wSkctl v => .bus (writeWord 0x0F v)
  | .wOutOfRange off v => .bus (writeWord off v)
  | .rPot0 => .bus (readWord 0x00)
  | .rPot1 => .bus (readWord 0x01)
  | .rPot2 => .bus (readWord 0x02)
  | .rPot3 => .bus (readWord 0x03)
  | .rPot4 => .bus (readWord 0x04)
  | .rPot5 => .bus (readWord 0x05)
  | .rPot6 => .bus (readWord 0x06)
  | .rPot7 => .bus (readWord 0x07)
  | .rAllpot => .bus (readWord 0x08)
  | .rKbcode => .bus (readWord 0x09)
  | .rRandom => .bus (readWord 0x0A)
  | .rUnmappedB => .bus (readWord 0x0B)
  | .rUnmappedC => .bus (readWord 0x0C)
  | .rSerin => .bus (readWord 0x0D)
  | .rIrqst => .bus (readWord 0x0E)
  | .rSkstat => .bus (readWord 0x0F)
  | .rOutOfRange off => .bus (readWord off)
  | .evCh1 => .event 0
  | .evCh2 => .event 1
  | .evCh3 => .event 2
  | .evCh4 => .event 3
  | .evSample => .event 4
  | .evT1 => .event 5
  | .evT2 => .event 6
  | .evT4 => .event 7
  | .evSerReady => .event 8
  | .evSerComplete => .event 9
  | .evPot0 => .event 10
  | .evPot1 => .event 11
  | .evPot2 => .event 12
  | .evPot3 => .event 13
  | .evPot4 => .event 14
  | .evPot5 => .event 15
  | .evPot6 => .event 16
  | .evPot7 => .event 17
  | .render n => .pull n
  | .build n slice => .build n slice
  | .reset => .reset

end Sys2Proof
end

