-- ==== Sys2Proof/Machine/State.lean ====
section
/-!
DEFINITION. The state of one chip instance (`10_state.md` R10 to R33), the reasons a step can stop, the model's own
fields for the host's side, and the reset state (`10_state.md` R35, `70_reset_and_hazards.md` R250).
-/

namespace Sys2Proof.Machine

/-- The channel indices CH1 to CH4: an index type with exactly four values (`41_channel.md` R129). -/
inductive Ch where
  | ch1 | ch2 | ch3 | ch4
deriving DecidableEq, Repr

/-- The timer indices T1, T2, T4; there is no T3 (`00_scope.md` R6). -/
inductive TimerId where
  | t1 | t2 | t4
deriving DecidableEq, Repr

/-- One channel record (`10_state.md` R12 to R18). -/
structure Channel where
  /-- `AUDF[c]`, frequency register (R12). -/
  audf : Byte
  /-- `AUDC[c]`, control register (R13). -/
  audc : Byte
  /-- `divisor[c]`, reload value in ticks (R14). -/
  divisor : Ticks
  /-- `counter[c]`, ticks to the next channel event (R15). -/
  counter : Ticks
  /-- `output[c]`, HIGH = true (R16). -/
  output : Bool
  /-- `volume[c]`, linear amplitude (R17). -/
  volume : Nat
  /-- `audible[c]` (R18). -/
  audible : Bool
deriving DecidableEq, Repr

/-- One timer record (`10_state.md` R27). -/
structure Timer where
  /-- `timer_period[k]`: none = not armed. -/
  period : Option Nat
  /-- `timer_deadline[k]`: the tick count of the next expiry. -/
  deadline : Option Nat
deriving DecidableEq, Repr

/-- One paddle slot (`10_state.md` R32). -/
structure PotSlot where
  /-- `pot_target[i]`: none = unconnected. -/
  target : Option Nat
  /-- `pot_deadline[i]`. -/
  deadline : Option Nat
  /-- `POT[i]`, the latched value. -/
  latched : Byte
deriving DecidableEq, Repr

/-- What the host is told, one entry per call or answer (`20_memory.md` R44, R47, `42_scheduler.md` R137,
`40_polynomial.md` R80). -/
inductive HostEvent where
  /-- The byte a bus read returns. -/
  | readReturned (b : Byte)
  /-- `Emit(s)`: one sample appended to the buffer of the running `RENDER`. -/
  | sample (v : Nat)
  /-- `SerialOut(b)`. -/
  | serialOut (b : Byte)
  /-- `IrqSink(m)`. -/
  | irqSink (mask : Byte)
  /-- The table a `BUILD` returns. -/
  | tableBuilt (entries : List Nat)
deriving DecidableEq, Repr

/-- A host event with the tick at which it happens (`42_scheduler.md` R144). -/
structure Logged where
  tick : Nat
  event : HostEvent
deriving DecidableEq, Repr

/-- One thing the host does between two operations of the chip: issue an operation (`00_scope.md` R8), or use one of the
two optional hooks that stand for the excluded receiver and keyboard logic (`44_serial.md` R177,
`46_register_interface.md` R212). -/
inductive HostItem where
  | operation (r : Request)
  /-- `SetError(mask)` with the three bits of `mask` that lie within 0xE0: FRAME, OVERRUN, KBERR. -/
  | setError (errors : BitVec 3)
  /-- `SetKbcode(b)`. -/
  | setKbcode (code : Byte)
deriving DecidableEq, Repr

/-- The host's side, plain data of the MODEL and no state of the chip (`10_state.md` R36): log entries 1, 6, 7. -/
structure HostSide where
  /-- Operations issued and not yet performed, oldest first. -/
  inbox : List HostItem
  /-- Answers of `pot_provider`, in call order; none = absent. -/
  potAnswers : List (Option Nat)
  /-- Answers of `allpot_override`, in call order; none = absent. -/
  allpotAnswers : List (Option Byte)
  /-- Answers of `serial_in_provider`, in call order. -/
  serialAnswers : List Byte
  /-- The fixed byte of a constant `serial_in_provider` (`70_reset_and_hazards.md` R253). -/
  serialFixed : Byte
  /-- What the host has been told, newest first. -/
  trace : List Logged
deriving DecidableEq, Repr

/-- The state of one chip instance, with its configuration and the host's side. -/
structure State where
  /-- The configuration (`00_scope.md` R5): read by the rules, written by none. -/
  cfg : Config
  /-- `now`, ticks simulated since reset (`10_state.md` R11). -/
  now : Nat
  ch1 : Channel
  ch2 : Channel
  ch3 : Channel
  ch4 : Channel
  /-- KBCODE (`10_state.md` R19). -/
  kbcode : Byte
  /-- AUDCTL (R20). -/
  audctl : Byte
  /-- SKCTL (R21). -/
  skctl : Byte
  /-- SKSTAT, positive logic (R22). -/
  skstat : Byte
  /-- IRQEN (R23). -/
  irqen : Byte
  /-- IRQST, positive logic (R24). -/
  irqst : Byte
  /-- SEROUT (R25). -/
  serout : Byte
  /-- SERIN (R25). -/
  serin : Byte
  /-- `ser_ready` (R26). -/
  serReady : Option Nat
  /-- `ser_complete` (R26). -/
  serComplete : Option Nat
  t1 : Timer
  t2 : Timer
  t4 : Timer
  /-- Polynomial indices (R29). -/
  p4 : Nat
  p5 : Nat
  p9 : Nat
  p17 : Nat
  /-- Random indices and the tick of the previous RANDOM read (R30). -/
  r9 : Nat
  r17 : Nat
  randLast : Nat
  /-- ALLPOT, bit i = 1: input i is converting (R31). -/
  allpot : Byte
  /-- The eight paddle slots (R32). -/
  pots : Vector PotSlot 8
  /-- `pot_start` (R32). -/
  potStart : Nat
  /-- `pot_unit` (R32). -/
  potUnit : Nat
  /-- `samplepos_whole`, whole ticks to the next sample boundary (R33). -/
  sampleWhole : Nat
  /-- `samplepos_fract`, in 1/256 tick (R33). -/
  sampleFract : Nat
  /-- The host's side; no chip state. -/
  env : HostSide
deriving DecidableEq, Repr

/-- Why a step stops as a fault. -/
inductive Fault where
  /-- Raised by `RENDER` when its loop runs past the bound that every state of the invariant meets: the loop would never
  emit the samples asked for (a divisor or a period of 0, which `42_scheduler.md` R145 excludes). Safe: no state that a
  run reaches from a valid configuration raises it. -/
  | renderNeverEnds
deriving DecidableEq, Repr

/-- Why a step is refused. -/
inductive Refusal where
  /-- Raised by `exec`'s arm of an operation that has no meaning yet; no arm does. Safe: it claims nothing. -/
  | notModelled (mnemonic : String)
  /-- Raised by `step` on a request that is no operation: a reserved event id, a table that does not exist, bits of no
  format (`30_encoding.md` R60, R62, R63). Safe: the spec gives these no effect. -/
  | undecodable (e : DecodeError)
  /-- Raised by `BUILD` of a length and slice without a table (`30_encoding.md` R63, `60_exceptions.md` R231). Safe: the
  spec says that a model refuses it. -/
  | tableLengthMismatch (n : Nat)
  /-- Raised by `RESET` under a configuration that violates a constraint (`00_scope.md` R5, `45_paddle.md` R198). Safe: the spec says that
  such a configuration is refused. -/
  | invalidConfiguration
deriving DecidableEq, Repr

/-- A channel at reset (`10_state.md` R35): registers 0, counter equal to the divisor, `(0 + K_LO) * M_64K` ticks. -/
def Channel.reset (cfg : Config) : Channel where
  audf := 0x00#8
  audc := 0x00#8
  divisor := .at (max 1 ((0 + cfg.kLo) * cfg.m64k))
  counter := .at (max 1 ((0 + cfg.kLo) * cfg.m64k))
  output := false
  volume := 0
  audible := false

/-- A timer at reset: not armed (`10_state.md` R27, R35). -/
def Timer.reset : Timer := { period := none, deadline := none }

/-- A paddle slot at reset: unconnected, nothing pending, 0x00 latched (`10_state.md` R32, R35). -/
def PotSlot.reset : PotSlot := { target := none, deadline := none, latched := 0x00#8 }

/-- The reset state of an instance with configuration `cfg` (`10_state.md` R35): every chip field at its row of the
table. The host's side is the host's and stays as it is (log entry 10). -/
def State.resetFor (cfg : Config) (env : HostSide) : State where
  cfg := cfg
  now := 0
  ch1 := Channel.reset cfg
  ch2 := Channel.reset cfg
  ch3 := Channel.reset cfg
  ch4 := Channel.reset cfg
  kbcode := cfg.kbcodeReset
  audctl := 0x00#8
  skctl := 0x03#8
  skstat := 0x00#8
  irqen := 0x00#8
  irqst := 0x00#8
  serout := 0x00#8
  serin := 0x00#8
  serReady := none
  serComplete := none
  t1 := Timer.reset
  t2 := Timer.reset
  t4 := Timer.reset
  p4 := 0
  p5 := 0
  p9 := 0
  p17 := 0
  r9 := 0
  r17 := 0
  randLast := 0
  allpot := 0x00#8
  pots := Vector.replicate 8 PotSlot.reset
  potStart := 0
  potUnit := cfg.potUnitSlow
  sampleWhole := cfg.step248 >>> 8
  sampleFract := cfg.step248 % 256
  env := env

/-- A host that has issued nothing, binds each asking port to the constant of `70_reset_and_hazards.md` R253 and has been
told nothing. The fixed serial byte is a DESIGN CHOICE, log entry 6: unsafe for a statement that rests on it. -/
def HostSide.idle : HostSide where
  inbox := []
  potAnswers := []
  allpotAnswers := []
  serialAnswers := []
  serialFixed := 0x00#8
  trace := []

/-- The machine right after reset, with the spec's example configuration (log entry 3) and an idle host. -/
def State.reset : State := State.resetFor Config.standard HostSide.idle

end Sys2Proof.Machine
end

