-- ==== Sys2Proof/Machine/Operands.lean ====
section
/-!
DEFINITION. Operand assembly: the fields of the registers (`30_encoding.md` R64 to R67, `10_state.md` R13, R20, R21), the
arithmetic of `Ticks` (`00_scope.md` R6), access to the indexed state, and the three functions of the registers that
`Configure` recomputes (`41_channel.md` R101 to R103).
-/

namespace Sys2Proof

/-- The counter is 0; NEVER is not (`00_scope.md` R6). -/
def Ticks.isZero : Ticks → Bool
  | .at n => n == 0
  | .never => false

/-- `t - e`, with `NEVER - e = NEVER` (`00_scope.md` R6). -/
def Ticks.minus : Ticks → Nat → Ticks
  | .at n, e => .at (n - e)
  | .never, _ => .never

/-- `a < b`, with NEVER greater than every natural (`00_scope.md` R6). -/
def Ticks.below : Ticks → Ticks → Bool
  | .at a, .at b => decide (a < b)
  | .at _, .never => true
  | .never, _ => false

/-- The naturals a `Ticks` stands for: none for NEVER. -/
def Ticks.toOption : Ticks → Option Nat
  | .at n => some n
  | .never => none

end Sys2Proof

namespace Sys2Proof.Machine

/-- `AUDC[7]`, NOTPOLY5: the 5-bit polynomial does not gate this channel (`10_state.md` R13). -/
def audcNotPoly5 (v : Byte) : Bool := v.getLsbD 7
/-- `AUDC[6]`, POLY4 (`10_state.md` R13). -/
def audcPoly4 (v : Byte) : Bool := v.getLsbD 6
/-- `AUDC[5]`, PURE (`10_state.md` R13). -/
def audcPure (v : Byte) : Bool := v.getLsbD 5
/-- `AUDC[4]`, VOLONLY (`10_state.md` R13). -/
def audcVolOnly (v : Byte) : Bool := v.getLsbD 4
/-- `AUDC[3:0]`, VOL (`10_state.md` R13). -/
def audcVol (v : Byte) : Nat := v.toNat % 16

/-- `AUDCTL[7]`, POLY9 (`10_state.md` R20). -/
def audctlPoly9 (v : Byte) : Bool := v.getLsbD 7
/-- `AUDCTL[6]`, CH1_HICLK (`10_state.md` R20). -/
def audctlCh1Hi (v : Byte) : Bool := v.getLsbD 6
/-- `AUDCTL[5]`, CH3_HICLK (`10_state.md` R20). -/
def audctlCh3Hi (v : Byte) : Bool := v.getLsbD 5
/-- `AUDCTL[4]`, CH12_JOINED (`10_state.md` R20). -/
def audctlJoin12 (v : Byte) : Bool := v.getLsbD 4
/-- `AUDCTL[3]`, CH34_JOINED (`10_state.md` R20). -/
def audctlJoin34 (v : Byte) : Bool := v.getLsbD 3
/-- `AUDCTL[2]`, CH1_FILTER (`10_state.md` R20). -/
def audctlFilter1 (v : Byte) : Bool := v.getLsbD 2
/-- `AUDCTL[1]`, CH2_FILTER (`10_state.md` R20). -/
def audctlFilter2 (v : Byte) : Bool := v.getLsbD 1
/-- `AUDCTL[0]`, CLK_15KHZ (`10_state.md` R20). -/
def audctl15k (v : Byte) : Bool := v.getLsbD 0

/-- `SKCTL[2]`, PADDLE: fast paddle mode (`10_state.md` R21). -/
def skctlFastPaddle (v : Byte) : Bool := v.getLsbD 2
/-- The reset-control is set: `SKCTL[1:0] != 0` (`10_state.md` R21). -/
def skctlResetSet (v : Byte) : Bool := v.toNat % 4 != 0

/-- The gating mode of a channel (`30_encoding.md` R64). -/
inductive GateMode where
  | pure | poly4 | poly9 | poly17
deriving DecidableEq, Repr

/-- The gating mode an AUDC byte selects, with `AUDCTL.POLY9` (`30_encoding.md` R64). -/
def gateMode (audc audctl : Byte) : GateMode :=
  if audcPure audc then .pure
  else if audcPoly4 audc then .poly4
  else if audctlPoly9 audctl then .poly9
  else .poly17

/-- The record of channel c. -/
def State.ch (s : State) : Ch → Channel
  | .ch1 => s.ch1
  | .ch2 => s.ch2
  | .ch3 => s.ch3
  | .ch4 => s.ch4

/-- The state with the record of channel c replaced. -/
def State.setCh (s : State) (c : Ch) (k : Channel) : State :=
  match c with
  | .ch1 => { s with ch1 := k }
  | .ch2 => { s with ch2 := k }
  | .ch3 => { s with ch3 := k }
  | .ch4 => { s with ch4 := k }

/-- The record of timer k. -/
def State.timer (s : State) : TimerId → Timer
  | .t1 => s.t1
  | .t2 => s.t2
  | .t4 => s.t4

/-- The state with the record of timer k replaced. -/
def State.setTimer (s : State) (k : TimerId) (t : Timer) : State :=
  match k with
  | .t1 => { s with t1 := t }
  | .t2 => { s with t2 := t }
  | .t4 => { s with t4 := t }

/-- The paddle slot i. -/
def State.pot (s : State) (i : Fin 8) : PotSlot := s.pots[i]

/-- The state with paddle slot i replaced. -/
def State.setPot (s : State) (i : Fin 8) (p : PotSlot) : State := { s with pots := s.pots.set i p }

/-- The reload value of the joined pair CH1+CH2, upper channel on the high side (`30_encoding.md` R67). -/
def joined12 (s : State) : Nat := s.ch2.audf.toNat * 256 + s.ch1.audf.toNat

/-- The reload value of the joined pair CH3+CH4 (`30_encoding.md` R67). -/
def joined34 (s : State) : Nat := s.ch4.audf.toNat * 256 + s.ch3.audf.toNat

/-- `M`, the divider of the slow clock domain (`41_channel.md` R101). -/
def slowDivider (s : State) : Nat := if audctl15k s.audctl then s.cfg.m15k else s.cfg.m64k

/-- `Divisor(c)` before its clamp (`41_channel.md` R101). -/
def rawDivisor (s : State) : Ch → Nat
  | .ch1 => if audctlCh1Hi s.audctl then s.ch1.audf.toNat + s.cfg.kHi else (s.ch1.audf.toNat + s.cfg.kLo) * slowDivider s
  | .ch2 =>
    if audctlJoin12 s.audctl then
      if audctlCh1Hi s.audctl then joined12 s + s.cfg.kHiJoined else (joined12 s + s.cfg.kLo) * slowDivider s
    else (s.ch2.audf.toNat + s.cfg.kLo) * slowDivider s
  | .ch3 => if audctlCh3Hi s.audctl then s.ch3.audf.toNat + s.cfg.kHi else (s.ch3.audf.toNat + s.cfg.kLo) * slowDivider s
  | .ch4 =>
    if audctlJoin34 s.audctl then
      if audctlCh3Hi s.audctl then joined34 s + s.cfg.kHiJoined else (joined34 s + s.cfg.kLo) * slowDivider s
    else (s.ch4.audf.toNat + s.cfg.kLo) * slowDivider s

/-- `Divisor(c)`, clamped to a minimum of 1 (`41_channel.md` R101). -/
def divisorOf (s : State) (c : Ch) : Nat := max 1 (rawDivisor s c)

/-- `Volume(c)` (`41_channel.md` R102). -/
def volumeOf (s : State) (c : Ch) : Nat := audcVol (s.ch c).audc * s.cfg.gain

end Sys2Proof.Machine
end

