-- ==== Sys2Proof/Machine/Flags.lean ====
section
/-!
DEFINITION. The one-bit pieces of state and what computes them (`10_state.md` R37): the audible flag (`41_channel.md`
R103), the toggle decision behind the output flags (R119), and the masks of the IRQST, SKSTAT and ALLPOT bits.
-/

namespace Sys2Proof.Machine

/-- `Audible(c)` (`41_channel.md` R103): the volume field is not 0 and, only when `OPT_INAUDIBLE` is on, the channel is
not a pure tone with a divisor below the whole ticks of a sample. DEDUCED, log entry 9: safe with the option off, where no
rule reads the flag. -/
def audibleOf (s : State) (c : Ch) : Bool :=
  audcVol (s.ch c).audc != 0 &&
    !(s.cfg.optInaudible && audcPure (s.ch c).audc && decide (divisorOf s c < s.cfg.tps))

/-- The current bit of the 5-bit table (`40_polynomial.md` R86). -/
def poly5Now (s : State) : Bool := poly5 s.p5

/-- The 5-bit gate: open when bypassed or when the current bit is 1 (`41_channel.md` R119). -/
def gate5Open (s : State) (c : Ch) : Bool := audcNotPoly5 (s.ch c).audc || poly5Now s

/-- The mode's own condition on the toggle: always in pure tone, else when the output differs from the current bit of the
selected table (`41_channel.md` R119). -/
def modeToggles (s : State) (c : Ch) : Bool :=
  match gateMode (s.ch c).audc s.audctl with
  | .pure => true
  | .poly4 => (s.ch c).output != poly4 s.p4
  | .poly9 => (s.ch c).output != poly9 s.p9
  | .poly17 => (s.ch c).output != poly17 s.p17

/-- `ToggleDecision(c)` (`41_channel.md` R119). -/
def toggleDecision (s : State) (c : Ch) : Bool := gate5Open s c && modeToggles s c

/-- The IRQEN and IRQST bit of a timer (`10_state.md` R23): TIMR1 0, TIMR2 1, TIMR4 2. -/
def timerIrqBit : TimerId → Byte
  | .t1 => 0x01#8
  | .t2 => 0x02#8
  | .t4 => 0x04#8

/-- SEROC, bit 3: serial complete (`10_state.md` R23). -/
def irqSerComplete : Byte := 0x08#8
/-- SEROR, bit 4: serial ready (`10_state.md` R23). -/
def irqSerReady : Byte := 0x10#8

/-- SEROUT_BUSY, the "transmitting" bit of SKSTAT (`10_state.md` R22). -/
def skstatBusy : Byte := 0x02#8
/-- FRAME, OVERRUN and KBERR, the sticky error bits of SKSTAT (`10_state.md` R22). -/
def skstatErrors : Byte := 0xE0#8

/-- The ALLPOT bit of input i (`10_state.md` R31). -/
def potBit (i : Fin 8) : Byte := 1#8 <<< i.val

/-- Input i is converting (`10_state.md` R31). -/
def converting (s : State) (i : Fin 8) : Bool := s.allpot.getLsbD i.val

end Sys2Proof.Machine
end

