-- ==== Sys2Proof/Machine/Ops.lean ====
section
/-!
DEFINITION. The named operations that the meanings share: the host ports, `Configure`, `RaiseIrq` and the acknowledge
beside it, the eighteen internal events, `Settle`, `Advance`, `SchedStep`, and the frames of bus reads and writes.
The block takes no exception of its own (`60_exceptions.md` R230): "trap entry" is the call `IrqSink` that `raiseIrq` makes
(R235) and "trap return" the acknowledge by the IRQEN write (R236).
-/

namespace Sys2Proof.Machine

/-! ### Host ports (`20_memory.md` R47) -/

/-- Tell the host something: the call or answer enters the trace with the tick at which it happens. -/
def emit (e : HostEvent) (s : State) : State :=
  { s with env := { s.env with trace := { tick := s.now, event := e } :: s.env.trace } }

/-- `PotProvider(i)`: the next answer of the host, or absent where the port is bound to that constant
(`00_scope.md` R7, `70_reset_and_hazards.md` R253). -/
def askPot (s : State) : Option Nat × State :=
  match s.env.potAnswers with
  | [] => (none, s)
  | a :: rest => (a, { s with env := { s.env with potAnswers := rest } })

/-- `AllpotOverride()`: the next answer of the host, or absent where the port is bound to that constant. -/
def askAllpot (s : State) : Option Byte × State :=
  match s.env.allpotAnswers with
  | [] => (none, s)
  | a :: rest => (a, { s with env := { s.env with allpotAnswers := rest } })

/-- `SerialIn()`: the next byte of the host, or the fixed byte of a constant port. -/
def askSerial (s : State) : Byte × State :=
  match s.env.serialAnswers with
  | [] => (s.env.serialFixed, s)
  | b :: rest => (b, { s with env := { s.env with serialAnswers := rest } })

/-! ### Channels (`41_channel.md`) -/

/-- `Configure(c)` (`41_channel.md` R108, with the sentinel treatment R104 and the clamp R105). -/
def configure (c : Ch) (s : State) : State :=
  let k := s.ch c
  let d := Ticks.at (divisorOf s c)
  let a := audibleOf s c
  if s.cfg.optInaudible && !a then
    s.setCh c { k with
      divisor := d, volume := volumeOf s c >>> 1, audible := a, output := true, counter := .never }
  else
    s.setCh c { k with
      divisor := d, volume := volumeOf s c, audible := a,
      counter := if d.below k.counter then d else k.counter }

/-- `AUDF[c] <- v`. -/
def setAudf (c : Ch) (v : Byte) (s : State) : State := s.setCh c { s.ch c with audf := v }

/-- `AUDC[c] <- v`. -/
def setAudc (c : Ch) (v : Byte) (s : State) : State := s.setCh c { s.ch c with audc := v }

/-- `FilterLink(c)` (`41_channel.md` R124): the pairs are (CH1, CH3) and (CH2, CH4). -/
def filterLink (c : Ch) (s : State) : State :=
  match c with
  | .ch1 | .ch3 =>
    if audctlFilter1 s.audctl && s.ch3.output then { s with ch1 := { s.ch1 with output := false } } else s
  | .ch2 | .ch4 =>
    if audctlFilter2 s.audctl && s.ch4.output then { s with ch2 := { s.ch2 with output := false } } else s

/-- What a channel event does before the filter link: reload and toggle, or the sentinel treatment
(`41_channel.md` R120 to R123, R104). -/
def reloadToggle (c : Ch) (s : State) : State :=
  let k := s.ch c
  if s.cfg.optInaudible && !k.audible then
    s.setCh c { k with counter := .never, output := true }
  else
    s.setCh c { k with counter := k.divisor, output := if toggleDecision s c then !k.output else k.output }

/-- The channel event of channel c (`41_channel.md` R120 to R123). -/
def channelEvent (c : Ch) (s : State) : State := filterLink c (reloadToggle c s)

/-- `Contribution(c)` (`41_channel.md` R125). -/
def contribution (s : State) (c : Ch) : Nat :=
  if (s.ch c).output || audcVolOnly (s.ch c).audc then (s.ch c).volume else 0

/-- `Mix` (`42_scheduler.md` R139). -/
def mix (s : State) : Nat :=
  contribution s .ch1 + contribution s .ch2 + contribution s .ch3 + contribution s .ch4

/-- The sample: the sum clamped to `SAMPLE_MAX` (`42_scheduler.md` R140). -/
def sampleValue (s : State) : Nat := min (mix s) sampleMax

/-- `EV_SAMPLE` (`42_scheduler.md` R137). -/
def sampleEvent (s : State) : State :=
  let t := emit (.sample (sampleValue s)) s
  let f := t.sampleFract + t.cfg.step248
  { t with sampleWhole := t.sampleWhole + (f >>> 8), sampleFract := f % 256 }

/-! ### Interrupts (`43_timer_irq.md`) -/

/-- `RaiseIrq(bits)` (`43_timer_irq.md` R156): only enabled bits become pending; the sink is called once, with every
pending enabled bit. The whole of "trap entry" for this block (`60_exceptions.md` R235). -/
def raiseIrq (bits : Byte) (s : State) : State :=
  let b := bits &&& s.irqen
  if b = 0#8 then s
  else
    let t := { s with irqst := s.irqst ||| b }
    emit (.irqSink (t.irqst &&& t.irqen)) t

/-- The acknowledge and enable of the IRQEN write (`43_timer_irq.md` R153): pending bits written 0 are cleared, then the
mask is stored; the sink is not called. The whole of "trap return" (`60_exceptions.md` R236). -/
def acknowledgeEnable (v : Byte) (s : State) : State := { s with irqst := s.irqst &&& v, irqen := v }

/-- A timer period: the divisor when it is strictly greater than `TIMER_MIN` (`43_timer_irq.md` R152). A divisor NEVER
arms no timer: DEDUCED, log entry 11, safe since no divisor is ever NEVER (`10_state.md` R14). -/
def periodOf (s : State) (d : Ticks) : Option Nat :=
  match d with
  | .at n => if s.cfg.timerMin < n then some n else none
  | .never => none

/-- `Periods` (`43_timer_irq.md` R152). -/
def timerPeriod (s : State) : TimerId → Option Nat
  | .t1 => if audctlJoin12 s.audctl then periodOf s s.ch2.divisor else periodOf s s.ch1.divisor
  | .t2 => periodOf s s.ch2.divisor
  | .t4 => periodOf s s.ch4.divisor

/-- The record a rearm at tick `now` gives a timer of period `p` (`43_timer_irq.md` R151). -/
def armedTimer (now : Nat) (p : Option Nat) : Timer :=
  { period := p, deadline := p.map (now + ·) }

/-- `rearm_all()` (`43_timer_irq.md` R151): every counter 0, every timer destroyed and scheduled at its full period. -/
def rearmAll (s : State) : State :=
  { s with
    ch1 := { s.ch1 with counter := .at 0 }
    ch2 := { s.ch2 with counter := .at 0 }
    ch3 := { s.ch3 with counter := .at 0 }
    ch4 := { s.ch4 with counter := .at 0 }
    t1 := armedTimer s.now (timerPeriod s .t1)
    t2 := armedTimer s.now (timerPeriod s .t2)
    t4 := armedTimer s.now (timerPeriod s .t4) }

/-- A deadline is due: `some d` with `d <= now` (`42_scheduler.md` R142). -/
def due (now : Nat) : Option Nat → Bool
  | some d => decide (d ≤ now)
  | none => false

/-- Expiry of timer k (`43_timer_irq.md` R155, R157, R158). Where its precondition fails nothing happens, as `Settle`
decides (`42_scheduler.md` R143): DEDUCED, log entry 5, safe. -/
def timerExpiry (k : TimerId) (s : State) : State :=
  match (s.timer k).deadline, (s.timer k).period with
  | some d, some p =>
    if d ≤ s.now then raiseIrq (timerIrqBit k) (s.setTimer k { s.timer k with deadline := some (d + p) }) else s
  | _, _ => s

/-! ### Serial unit (`44_serial.md`) -/

/-- `EV_SER_READY` (`44_serial.md` R172), guarded by its precondition (log entry 5). -/
def serialReady (s : State) : State :=
  if due s.now s.serReady then raiseIrq irqSerReady { s with serReady := none } else s

/-- `EV_SER_COMPLETE` (`44_serial.md` R173), guarded by its precondition (log entry 5). -/
def serialComplete (s : State) : State :=
  if due s.now s.serComplete then
    raiseIrq irqSerComplete { s with serComplete := none, skstat := s.skstat &&& ~~~skstatBusy }
  else s

/-- `write_serout(v)` (`44_serial.md` R171). -/
def writeSerout (v : Byte) (s : State) : State :=
  let t := emit (.serialOut v) { s with serout := v }
  { t with
    skstat := t.skstat ||| skstatBusy
    serReady := some (t.now + t.cfg.tSerReady)
    serComplete := some (t.now + t.cfg.tSerComplete) }

/-! ### Paddles (`45_paddle.md`) -/

/-- `EV_POTi` (`45_paddle.md` R195), guarded by its precondition (log entry 5). -/
def potComplete (i : Fin 8) (s : State) : State :=
  match (s.pot i).deadline, (s.pot i).target with
  | some d, some t =>
    if d ≤ s.now then
      { s.setPot i { s.pot i with latched := BitVec.ofNat 8 t, deadline := none } with
        allpot := s.allpot &&& ~~~(potBit i) }
    else s
  | _, _ => s

/-- What `potgo` does for input i with the provider's answer (`45_paddle.md` R191). -/
def startPot (i : Fin 8) (a : Option Nat) (s : State) : State :=
  match a with
  | none => s.setPot i { s.pot i with target := none, deadline := none }
  | some v =>
    let t := min v potMax
    s.setPot i { s.pot i with target := some t, deadline := some (s.now + t * s.potUnit) }

/-- One turn of `potgo`'s loop: one provider call and its effect (`45_paddle.md` R191). -/
def askStartPot (s : State) (i : Fin 8) : State :=
  let r := askPot s
  startPot i r.1 r.2

/-- The paddle inputs in their order. -/
def potInputs : List (Fin 8) := [0, 1, 2, 3, 4, 5, 6, 7]

/-- `potgo()` (`45_paddle.md` R191). -/
def potgo (s : State) : State :=
  potInputs.foldl askStartPot
    { s with
      potUnit := if skctlFastPaddle s.skctl then s.cfg.potUnitFast else s.cfg.potUnitSlow
      potStart := s.now
      allpot := 0xFF#8 }

/-- The running estimate of a converting input, and the latched value of another (`45_paddle.md` R193, R196). -/
def potRead (s : State) (i : Fin 8) : Byte :=
  if converting s i then
    BitVec.ofNat 8 (min ((s.now - s.potStart) / s.potUnit) ((s.pot i).target.getD potMax))
  else (s.pot i).latched

/-! ### The scheduler (`42_scheduler.md`) -/

/-- `Settle` (`42_scheduler.md` R143): every due deadline event, in id order, once each. -/
def settle (s : State) : State :=
  let s := timerExpiry .t1 s
  let s := timerExpiry .t2 s
  let s := timerExpiry .t4 s
  let s := serialReady s
  let s := serialComplete s
  potInputs.foldl (fun s i => potComplete i s) s

/-- The deadlines that are set: timers, serial, paddles (`42_scheduler.md` R131, R142). -/
def deadlines (s : State) : List Nat :=
  [s.t1.deadline, s.t2.deadline, s.t4.deadline, s.serReady, s.serComplete].filterMap id ++
    potInputs.filterMap (fun i => (s.pot i).deadline)

/-- `Candidates` (`42_scheduler.md` R131): the present counters, `samplepos_whole`, and the distances to the deadlines. -/
def candidates (s : State) : List Nat :=
  [s.ch1.counter, s.ch2.counter, s.ch3.counter, s.ch4.counter].filterMap Ticks.toOption ++
    [s.sampleWhole] ++ (deadlines s).map (· - s.now)

/-- `min(Candidates)` (`42_scheduler.md` R132); `samplepos_whole` is always among them. -/
def minSelect (s : State) : Nat := (candidates s).foldl min s.sampleWhole

/-- `PolyAdvance(e)` (`40_polynomial.md` R85). -/
def polyAdvance (e : Nat) (s : State) : State :=
  { s with
    p4 := (s.p4 + e) % polyLen 4
    p5 := (s.p5 + e) % polyLen 5
    p9 := (s.p9 + e) % polyLen 9
    p17 := (s.p17 + e) % polyLen 17 }

/-- `Advance(e)` (`42_scheduler.md` R133). -/
def advance (e : Nat) (s : State) : State :=
  polyAdvance e
    { s with
      ch1 := { s.ch1 with counter := s.ch1.counter.minus e }
      ch2 := { s.ch2 with counter := s.ch2.counter.minus e }
      ch3 := { s.ch3 with counter := s.ch3.counter.minus e }
      ch4 := { s.ch4 with counter := s.ch4.counter.minus e }
      sampleWhole := s.sampleWhole - e
      now := s.now + e }

/-- The channels in the order of the tie-break (`42_scheduler.md` R134). -/
def channelOrder : List Ch := [.ch1, .ch2, .ch3, .ch4]

/-- The channel events of one step: the set of channels at 0 is decided once, on `z` (`42_scheduler.md` R135). -/
def channelEvents (z : State) (s : State) : State :=
  channelOrder.foldl (fun s c => if (z.ch c).counter.isZero then channelEvent c s else s) s

/-- What happens on a tick once time has advanced to it: channel events, sample boundary, due deadlines
(`42_scheduler.md` R134, R135). -/
def processTick (s : State) : State :=
  let t := channelEvents s s
  settle (if t.sampleWhole = 0 then sampleEvent t else t)

/-- `SchedStep` (`42_scheduler.md` R135). -/
def schedStep (s : State) : State := processTick (advance (minSelect s) s)

/-- This step reaches the sample boundary, so it emits one sample (`42_scheduler.md` R135, R137). -/
def stepEmits (s : State) : Bool := decide (s.sampleWhole = minSelect s)

/-- The loop of `RENDER`: steps until no sample is owed (`42_scheduler.md` R136). `fuel` bounds the number of steps; none
when it runs out. -/
def renderLoop : (fuel owed : Nat) → State → Option State
  | _, 0, s => some s
  | 0, _ + 1, _ => none
  | fuel + 1, owed + 1, s => renderLoop fuel (if stepEmits s then owed else owed + 1) (schedStep s)

/-- A bound on the steps `n` samples take: at most one step without progress before each tick of progress, and the steps
that emit (`42_scheduler.md` R145). Log entry 8. -/
def renderFuel (n : Nat) (s : State) : Nat :=
  2 * (s.sampleWhole + n * ((s.sampleFract + 255 + s.cfg.step248) / 256)) + n

/-! ### Bus operations (`20_memory.md` R43, R44) -/

/-- `RegWrite`: the operation of the offset, then `Settle` (`20_memory.md` R43). -/
def regWriteWith (op : State → State) (s : State) : State := settle (op s)

/-- `RegRead`: the byte is returned to the host (`20_memory.md` R44). -/
def returnByte (b : Byte) (s : State) : State := emit (.readReturned b) s

/-- The effect of the RANDOM read on the indices (`40_polynomial.md` R87). -/
def randomAdvance (s : State) : State :=
  if skctlResetSet s.skctl then
    { s with
      r9 := (s.r9 + (s.now - s.randLast)) % polyLen 9
      r17 := (s.r17 + (s.now - s.randLast)) % polyLen 17
      randLast := s.now }
  else { s with r9 := 0, r17 := 0, randLast := s.now }

/-- The table entry behind RANDOM (`40_polynomial.md` R87). -/
def randomEntry (s : State) : Byte := if audctlPoly9 s.audctl then rand9 s.r9 else rand17 s.r17

/-! ### Optional host hooks -/

/-- `SetError(mask)`: ORs the three error bits into SKSTAT (`44_serial.md` R177). -/
def setError (errors : BitVec 3) (s : State) : State := { s with skstat := s.skstat ||| (errors ++ 0#5) }

/-- `SetKbcode(b)` (`46_register_interface.md` R212). -/
def setKbcode (code : Byte) (s : State) : State := { s with kbcode := code }

end Sys2Proof.Machine
end

