-- ==== Sys2Proof/Machine/Channel.lean ====
section
/-!
DEFINITION. The channel core: the writes of AUDF, AUDC and AUDCTL and the four channel events (`41_channel.md`).
-/

namespace Sys2Proof.Machine

/-- `W_AUDF1` (`41_channel.md` R110): the joined partner CH2 is recomputed too. -/
def execWAudf1 (v : Byte) (s : State) : Host.Outcome State Fault Refusal :=
  .next (regWriteWith (fun s =>
    let t := configure .ch1 (setAudf .ch1 v s)
    if audctlJoin12 t.audctl then configure .ch2 t else t) s)

/-- `W_AUDF2` (`41_channel.md` R111). -/
def execWAudf2 (v : Byte) (s : State) : Host.Outcome State Fault Refusal :=
  .next (regWriteWith (fun s => configure .ch2 (setAudf .ch2 v s)) s)

/-- `W_AUDF3` (`41_channel.md` R112): the joined partner CH4 is recomputed too. -/
def execWAudf3 (v : Byte) (s : State) : Host.Outcome State Fault Refusal :=
  .next (regWriteWith (fun s =>
    let t := configure .ch3 (setAudf .ch3 v s)
    if audctlJoin34 t.audctl then configure .ch4 t else t) s)

/-- `W_AUDF4` (`41_channel.md` R113). -/
def execWAudf4 (v : Byte) (s : State) : Host.Outcome State Fault Refusal :=
  .next (regWriteWith (fun s => configure .ch4 (setAudf .ch4 v s)) s)

/-- `W_AUDC1` (`41_channel.md` R114). -/
def execWAudc1 (v : Byte) (s : State) : Host.Outcome State Fault Refusal :=
  .next (regWriteWith (fun s => configure .ch1 (setAudc .ch1 v s)) s)

/-- `W_AUDC2` (`41_channel.md` R115). -/
def execWAudc2 (v : Byte) (s : State) : Host.Outcome State Fault Refusal :=
  .next (regWriteWith (fun s => configure .ch2 (setAudc .ch2 v s)) s)

/-- `W_AUDC3` (`41_channel.md` R116). -/
def execWAudc3 (v : Byte) (s : State) : Host.Outcome State Fault Refusal :=
  .next (regWriteWith (fun s => configure .ch3 (setAudc .ch3 v s)) s)

/-- `W_AUDC4` (`41_channel.md` R117). -/
def execWAudc4 (v : Byte) (s : State) : Host.Outcome State Fault Refusal :=
  .next (regWriteWith (fun s => configure .ch4 (setAudc .ch4 v s)) s)

/-- `W_AUDCTL` (`41_channel.md` R118): all four channels are recomputed, CH1 first. -/
def execWAudctl (v : Byte) (s : State) : Host.Outcome State Fault Refusal :=
  .next (regWriteWith (fun s => channelOrder.foldl (fun s c => configure c s) { s with audctl := v }) s)

/-- `EV_CH1` (`41_channel.md` R120). -/
def execEvCh1 (s : State) : Host.Outcome State Fault Refusal :=
  .next (channelEvent .ch1 s)

/-- `EV_CH2` (`41_channel.md` R121). -/
def execEvCh2 (s : State) : Host.Outcome State Fault Refusal :=
  .next (channelEvent .ch2 s)

/-- `EV_CH3` (`41_channel.md` R122). -/
def execEvCh3 (s : State) : Host.Outcome State Fault Refusal :=
  .next (channelEvent .ch3 s)

/-- `EV_CH4` (`41_channel.md` R123). -/
def execEvCh4 (s : State) : Host.Outcome State Fault Refusal :=
  .next (channelEvent .ch4 s)

end Sys2Proof.Machine
end

