-- ==== Sys2Proof/Machine/Construction.lean ====
section
/-!
DEFINITION. The creation of an instance (`70_reset_and_hazards.md`).
-/

namespace Sys2Proof.Machine

/-- `RESET` (`70_reset_and_hazards.md` R250): the reset state of the instance's configuration; no port is called and nothing
is emitted. A configuration that violates a constraint is refused (`00_scope.md` R5, `45_paddle.md` R198, log entry 10). -/
def execReset (s : State) : Host.Outcome State Fault Refusal :=
  if s.cfg.Valid then .next (State.resetFor s.cfg s.env) else .refused .invalidConfiguration

end Sys2Proof.Machine
end

