-- ==== Sys2Proof/Machine/Interface.lean ====
section
/-!
DEFINITION. The registers the interface owns, and the unmapped and out-of-range offsets (`46_register_interface.md`).
-/

namespace Sys2Proof.Machine

/-- `W_SKCTL` (`46_register_interface.md` R211). -/
def execWSkctl (v : Byte) (s : State) : Host.Outcome State Fault Refusal :=
  .next (regWriteWith (fun s => { s with skctl := v }) s)

/-- `R_KBCODE` (`46_register_interface.md` R212). -/
def execRKbcode (s : State) : Host.Outcome State Fault Refusal :=
  .next (returnByte s.kbcode s)

/-- `W_UNMAPPED` (`46_register_interface.md` R213): a no-op. -/
def execWUnmapped (_v : Byte) (s : State) : Host.Outcome State Fault Refusal :=
  .next (regWriteWith id s)

/-- `R_UNMAPPED_B` (`46_register_interface.md` R214): reads 0x00. -/
def execRUnmappedB (s : State) : Host.Outcome State Fault Refusal :=
  .next (returnByte 0x00#8 s)

/-- `R_UNMAPPED_C` (`46_register_interface.md` R214): reads 0x00. -/
def execRUnmappedC (s : State) : Host.Outcome State Fault Refusal :=
  .next (returnByte 0x00#8 s)

/-- `W_OUT_OF_RANGE` (`46_register_interface.md` R216): a no-op. -/
def execWOutOfRange (_off _v : Byte) (s : State) : Host.Outcome State Fault Refusal :=
  .next (regWriteWith id s)

/-- `R_OUT_OF_RANGE` (`46_register_interface.md` R216): reads 0x00. -/
def execROutOfRange (_off : Byte) (s : State) : Host.Outcome State Fault Refusal :=
  .next (returnByte 0x00#8 s)

end Sys2Proof.Machine
end

