-- ==== Sys2Proof/Machine/Paddle.lean ====
section
/-!
DEFINITION. The paddle converter (`45_paddle.md`).
-/

namespace Sys2Proof.Machine

/-- `W_POTGO` (`45_paddle.md` R191): the data byte is ignored; a target of 0 completes in the closing `Settle`. -/
def execWPotgo (_v : Byte) (s : State) : Host.Outcome State Fault Refusal :=
  .next (regWriteWith potgo s)

/-- `R_POT0` (`45_paddle.md` R193). -/
def execRPot0 (s : State) : Host.Outcome State Fault Refusal :=
  .next (returnByte (potRead s 0) s)

/-- `R_POT1` (`45_paddle.md` R193). -/
def execRPot1 (s : State) : Host.Outcome State Fault Refusal :=
  .next (returnByte (potRead s 1) s)

/-- `R_POT2` (`45_paddle.md` R193). -/
def execRPot2 (s : State) : Host.Outcome State Fault Refusal :=
  .next (returnByte (potRead s 2) s)

/-- `R_POT3` (`45_paddle.md` R193). -/
def execRPot3 (s : State) : Host.Outcome State Fault Refusal :=
  .next (returnByte (potRead s 3) s)

/-- `R_POT4` (`45_paddle.md` R193). -/
def execRPot4 (s : State) : Host.Outcome State Fault Refusal :=
  .next (returnByte (potRead s 4) s)

/-- `R_POT5` (`45_paddle.md` R193). -/
def execRPot5 (s : State) : Host.Outcome State Fault Refusal :=
  .next (returnByte (potRead s 5) s)

/-- `R_POT6` (`45_paddle.md` R193). -/
def execRPot6 (s : State) : Host.Outcome State Fault Refusal :=
  .next (returnByte (potRead s 6) s)

/-- `R_POT7` (`45_paddle.md` R193). -/
def execRPot7 (s : State) : Host.Outcome State Fault Refusal :=
  .next (returnByte (potRead s 7) s)

/-- `R_ALLPOT` (`45_paddle.md` R194): the override, where present, replaces the byte. -/
def execRAllpot (s : State) : Host.Outcome State Fault Refusal :=
  let r := askAllpot s
  .next (returnByte (r.1.getD r.2.allpot) r.2)

/-- `EV_POT0` (`45_paddle.md` R195). -/
def execEvPot0 (s : State) : Host.Outcome State Fault Refusal :=
  .next (potComplete 0 s)

/-- `EV_POT1` (`45_paddle.md` R195). -/
def execEvPot1 (s : State) : Host.Outcome State Fault Refusal :=
  .next (potComplete 1 s)

/-- `EV_POT2` (`45_paddle.md` R195). -/
def execEvPot2 (s : State) : Host.Outcome State Fault Refusal :=
  .next (potComplete 2 s)

/-- `EV_POT3` (`45_paddle.md` R195). -/
def execEvPot3 (s : State) : Host.Outcome State Fault Refusal :=
  .next (potComplete 3 s)

/-- `EV_POT4` (`45_paddle.md` R195). -/
def execEvPot4 (s : State) : Host.Outcome State Fault Refusal :=
  .next (potComplete 4 s)

/-- `EV_POT5` (`45_paddle.md` R195). -/
def execEvPot5 (s : State) : Host.Outcome State Fault Refusal :=
  .next (potComplete 5 s)

/-- `EV_POT6` (`45_paddle.md` R195). -/
def execEvPot6 (s : State) : Host.Outcome State Fault Refusal :=
  .next (potComplete 6 s)

/-- `EV_POT7` (`45_paddle.md` R195). -/
def execEvPot7 (s : State) : Host.Outcome State Fault Refusal :=
  .next (potComplete 7 s)

end Sys2Proof.Machine
end

