-- ==== Sys2Proof/Machine/Polynomial.lean ====
section
/-!
DEFINITION. The polynomial generator's operations: BUILD and the RANDOM read (`40_polynomial.md`).
-/

namespace Sys2Proof.Machine

/-- `R_RANDOM` (`40_polynomial.md` R87): the complement of the table entry at the advanced index. -/
def execRRandom (s : State) : Host.Outcome State Fault Refusal :=
  let t := randomAdvance s
  .next (returnByte (0xFF#8 ^^^ randomEntry t) t)

/-- `BUILD n` (`40_polynomial.md` R80): the table is returned to the constructor of the instance; the chip's own tables are
constants (`10_state.md` R28) and its state does not change. The spec performs it at construction only (`30_encoding.md` R60);
that it does the same whenever it is presented is a DESIGN CHOICE, log entry 18, safe. Another length, or a slice without a table, is refused
(`30_encoding.md` R63). -/
def execBuild (n : Nat) (slice : Slice) (s : State) : Host.Outcome State Fault Refusal :=
  match polyParam n, hasTable n slice with
  | some p, true => .next (emit (.tableBuilt (buildTable p (sliceOf n slice))) s)
  | _, _ => .refused (.tableLengthMismatch n)

end Sys2Proof.Machine
end

