-- ==== Sys2Proof/Machine/Scheduler.lean ====
section
/-!
DEFINITION. The event scheduler's operations: the host pull and the sample boundary (`42_scheduler.md`).
-/

namespace Sys2Proof.Machine

/-- `EV_SAMPLE` (`42_scheduler.md` R137). -/
def execEvSample (s : State) : Host.Outcome State Fault Refusal :=
  .next (sampleEvent s)

/-- `RENDER n` (`42_scheduler.md` R136): scheduler steps until `n` samples are emitted, then `Settle`. The fault is for a loop
without an end (log entry 8). -/
def execRender (n : Nat) (s : State) : Host.Outcome State Fault Refusal :=
  match renderLoop (renderFuel n s) n s with
  | some t => .next (settle t)
  | none => .fault .renderNeverEnds

end Sys2Proof.Machine
end

