-- ==== Sys2Proof/Machine/Serial.lean ====
section
/-!
DEFINITION. The serial unit and the system status (`44_serial.md`).
-/

namespace Sys2Proof.Machine

/-- `W_SEROUT` (`44_serial.md` R171). -/
def execWSerout (v : Byte) (s : State) : Host.Outcome State Fault Refusal :=
  .next (regWriteWith (writeSerout v) s)

/-- `EV_SER_READY` (`44_serial.md` R172). -/
def execEvSerReady (s : State) : Host.Outcome State Fault Refusal :=
  .next (serialReady s)

/-- `EV_SER_COMPLETE` (`44_serial.md` R173). -/
def execEvSerComplete (s : State) : Host.Outcome State Fault Refusal :=
  .next (serialComplete s)

/-- `R_SERIN` (`44_serial.md` R174): one call of the provider, whose byte is stored and returned. -/
def execRSerin (s : State) : Host.Outcome State Fault Refusal :=
  let r := askSerial s
  .next (returnByte r.1 { r.2 with serin := r.1 })

/-- `W_SKREST` (`44_serial.md` R175): clears the three error bits; the data byte is ignored. -/
def execWSkrest (_v : Byte) (s : State) : Host.Outcome State Fault Refusal :=
  .next (regWriteWith (fun s => { s with skstat := s.skstat &&& ~~~skstatErrors }) s)

/-- `R_SKSTAT` (`44_serial.md` R176). -/
def execRSkstat (s : State) : Host.Outcome State Fault Refusal :=
  .next (returnByte (0xFF#8 ^^^ s.skstat) s)

end Sys2Proof.Machine
end

