-- ==== Sys2Proof/Machine/TimerIrq.lean ====
section
/-!
DEFINITION. Timers, interrupt enable and interrupt status (`43_timer_irq.md`).
-/

namespace Sys2Proof.Machine

/-- `W_STIMER` (`43_timer_irq.md` R151): the data byte is ignored (`30_encoding.md` R68). -/
def execWStimer (_v : Byte) (s : State) : Host.Outcome State Fault Refusal :=
  .next (regWriteWith rearmAll s)

/-- `W_IRQEN` (`43_timer_irq.md` R153). -/
def execWIrqen (v : Byte) (s : State) : Host.Outcome State Fault Refusal :=
  .next (regWriteWith (acknowledgeEnable v) s)

/-- `R_IRQST` (`43_timer_irq.md` R154). -/
def execRIrqst (s : State) : Host.Outcome State Fault Refusal :=
  .next (returnByte (0xFF#8 ^^^ s.irqst) s)

/-- `EV_T1` (`43_timer_irq.md` R155). -/
def execEvT1 (s : State) : Host.Outcome State Fault Refusal :=
  .next (timerExpiry .t1 s)

/-- `EV_T2` (`43_timer_irq.md` R157). -/
def execEvT2 (s : State) : Host.Outcome State Fault Refusal :=
  .next (timerExpiry .t2 s)

/-- `EV_T4` (`43_timer_irq.md` R158). -/
def execEvT4 (s : State) : Host.Outcome State Fault Refusal :=
  .next (timerExpiry .t4 s)

end Sys2Proof.Machine
end

