-- ==== Sys2Proof/Machine/Dispatch.lean ====
section
/-!
DEFINITION. The dispatch: one arm per operation of `spec/opcode_table.json`, each one direct call of its meaning.
-/

namespace Sys2Proof.Machine

def exec (i : Instr) (s : State) : Host.Outcome State Fault Refusal :=
  match i with
  | .wAudf1 v => Sys2Proof.Machine.execWAudf1 v s
  | .wAudc1 v => Sys2Proof.Machine.execWAudc1 v s
  | .wAudf2 v => Sys2Proof.Machine.execWAudf2 v s
  | .wAudc2 v => Sys2Proof.Machine.execWAudc2 v s
  | .wAudf3 v => Sys2Proof.Machine.execWAudf3 v s
  | .wAudc3 v => Sys2Proof.Machine.execWAudc3 v s
  | .wAudf4 v => Sys2Proof.Machine.execWAudf4 v s
  | .wAudc4 v => Sys2Proof.Machine.execWAudc4 v s
  | .wAudctl v => Sys2Proof.Machine.execWAudctl v s
  | .wStimer v => Sys2Proof.Machine.execWStimer v s
  | .wSkrest v => Sys2Proof.Machine.execWSkrest v s
  | .wPotgo v => Sys2Proof.Machine.execWPotgo v s
  | .wUnmapped v => Sys2Proof.Machine.execWUnmapped v s
  | .wSerout v => Sys2Proof.Machine.execWSerout v s
  | .wIrqen v => Sys2Proof.Machine.execWIrqen v s
  | .wSkctl v => Sys2Proof.Machine.execWSkctl v s
  | .wOutOfRange off v => Sys2Proof.Machine.execWOutOfRange off v s
  | .rPot0 => Sys2Proof.Machine.execRPot0 s
  | .rPot1 => Sys2Proof.Machine.execRPot1 s
  | .rPot2 => Sys2Proof.Machine.execRPot2 s
  | .rPot3 => Sys2Proof.Machine.execRPot3 s
  | .rPot4 => Sys2Proof.Machine.execRPot4 s
  | .rPot5 => Sys2Proof.Machine.execRPot5 s
  | .rPot6 => Sys2Proof.Machine.execRPot6 s
  | .rPot7 => Sys2Proof.Machine.execRPot7 s
  | .rAllpot => Sys2Proof.Machine.execRAllpot s
  | .rKbcode => Sys2Proof.Machine.execRKbcode s
  | .rRandom => Sys2Proof.Machine.execRRandom s
  | .rUnmappedB => Sys2Proof.Machine.execRUnmappedB s
  | .rUnmappedC => Sys2Proof.Machine.execRUnmappedC s
  | .rSerin => Sys2Proof.Machine.execRSerin s
  | .rIrqst => Sys2Proof.Machine.execRIrqst s
  | .rSkstat => Sys2Proof.Machine.execRSkstat s
  | .rOutOfRange off => Sys2Proof.Machine.execROutOfRange off s
  | .evCh1 => Sys2Proof.Machine.execEvCh1 s
  | .evCh2 => Sys2Proof.Machine.execEvCh2 s
  | .evCh3 => Sys2Proof.Machine.execEvCh3 s
  | .evCh4 => Sys2Proof.Machine.execEvCh4 s
  | .evSample => Sys2Proof.Machine.execEvSample s
  | .evT1 => Sys2Proof.Machine.execEvT1 s
  | .evT2 => Sys2Proof.Machine.execEvT2 s
  | .evT4 => Sys2Proof.Machine.execEvT4 s
  | .evSerReady => Sys2Proof.Machine.execEvSerReady s
  | .evSerComplete => Sys2Proof.Machine.execEvSerComplete s
  | .evPot0 => Sys2Proof.Machine.execEvPot0 s
  | .evPot1 => Sys2Proof.Machine.execEvPot1 s
  | .evPot2 => Sys2Proof.Machine.execEvPot2 s
  | .evPot3 => Sys2Proof.Machine.execEvPot3 s
  | .evPot4 => Sys2Proof.Machine.execEvPot4 s
  | .evPot5 => Sys2Proof.Machine.execEvPot5 s
  | .evPot6 => Sys2Proof.Machine.execEvPot6 s
  | .evPot7 => Sys2Proof.Machine.execEvPot7 s
  | .render n => Sys2Proof.Machine.execRender n s
  | .build n slice => Sys2Proof.Machine.execBuild n slice s
  | .reset => Sys2Proof.Machine.execReset s

end Sys2Proof.Machine
end

