-- ==== Sys2Proof/Machine/Step.lean ====
section
/-!
DEFINITION. One step of the machine. There is no program counter and no fetched program (`10_state.md` R11): the host issues
operations, one at a time, and each is performed whole before the next begins (`00_scope.md` R8, `20_memory.md` R53). The
operations issued and not yet performed stand in `env.inbox`; a step takes the oldest. With an empty inbox no time passes
and nothing changes (`60_exceptions.md` R244). Log entries 1, 2, 4.
-/

namespace Sys2Proof.Machine

/-- The state with the host's issued operations replaced. -/
def State.setInbox (s : State) (l : List HostItem) : State := { s with env := { s.env with inbox := l } }

/-- Perform the operation a request presents, or refuse the request by name. -/
def runRequest (r : Request) (s : State) : Host.Outcome State Fault Refusal :=
  match decode r with
  | .ok i => exec i s
  | .error e => .refused (.undecodable e)

/-- One step: take the oldest thing the host has issued and perform it. -/
def step (s : State) : Host.Outcome State Fault Refusal :=
  match s.env.inbox with
  | [] => .next s
  | .operation r :: rest => runRequest r (s.setInbox rest)
  | .setError e :: rest => .next (setError e (s.setInbox rest))
  | .setKbcode b :: rest => .next (setKbcode b (s.setInbox rest))

/-- The state with the operation of `nbits` bits `w` issued ahead of everything else, so that the next step performs
exactly it. -/
def State.withFetchWord (s : State) (nbits w : Nat) : State :=
  s.setInbox (.operation (requestOfBits nbits w) :: s.env.inbox)

end Sys2Proof.Machine
end

