-- ==== Sys2Proof/Machine/Bus.lean ====
section
/-!
DEFINITION. The bus primitives by natural offset (`20_memory.md` R43, R44), the multi-chip system (`20_memory.md` R45,
`46_register_interface.md` R215, `60_exceptions.md` R242), and the source's component contracts as sequences of
operations (`30_encoding.md` R73).
-/

namespace Sys2Proof.Machine

/-- The operation of `RegWrite(off, v)`; an offset above 0xFF has no word and behaves as an out-of-range offset, here the
offset 0xFF (`30_encoding.md` R61). -/
def regWriteInstr (off : Nat) (v : Byte) : Instr :=
  if off < 256 then decodeWrite (BitVec.ofNat 8 off) v else .wOutOfRange 0xFF#8 v

/-- The operation of `RegRead(off)`. -/
def regReadInstr (off : Nat) : Instr :=
  if off < 256 then decodeRead (BitVec.ofNat 8 off) else .rOutOfRange 0xFF#8

/-- `RegWrite(off, v)` (`20_memory.md` R43). -/
def regWrite (off : Nat) (v : Byte) (s : State) : Host.Outcome State Fault Refusal := exec (regWriteInstr off v) s

/-- `RegRead(off)` (`20_memory.md` R44): the byte is the newest entry of the trace. -/
def regRead (off : Nat) (s : State) : Host.Outcome State Fault Refusal := exec (regReadInstr off) s

/-- The default `Decode` of a wide bus address: `(chip_index, register_offset)` (`20_memory.md` R45). -/
def defaultDecode (a : Nat) : Nat × Nat := (a / 16, a % 16)

/-- Perform an operation on chip `k` of a list of instances: each instance is independent, and an index that selects no
chip changes nothing (`20_memory.md` R45, `60_exceptions.md` R242). -/
def onChip (k : Nat) (i : Instr) (chips : List State) : Host.Outcome (List State) Fault Refusal :=
  match chips[k]? with
  | none => .next chips
  | some s =>
    match exec i s with
    | .next t => .next (chips.set k t)
    | .fault r => .fault r
    | .refused r => .refused r

/-- A bus write to a system of instances under the platform's `Decode` (`20_memory.md` R45). -/
def systemWrite (dec : Nat → Nat × Nat) (a : Nat) (v : Byte) (chips : List State) :
    Host.Outcome (List State) Fault Refusal :=
  onChip (dec a).1 (regWriteInstr (dec a).2 v) chips

/-- A bus read from a system of instances: the byte it returns and the system after it; 0x00 where no chip is selected
(`20_memory.md` R45). -/
def systemRead (dec : Nat → Nat × Nat) (a : Nat) (chips : List State) :
    Host.Outcome (Byte × List State) Fault Refusal :=
  match chips[(dec a).1]? with
  | none => .next (0x00#8, chips)
  | some s =>
    match regRead (dec a).2 s with
    | .next t =>
      match t.env.trace with
      | { event := .readReturned b, .. } :: _ => .next (b, chips.set (dec a).1 t)
      | _ => .next (0x00#8, chips.set (dec a).1 t)
    | .fault r => .fault r
    | .refused r => .refused r

/-- The source's component contracts (`30_encoding.md` R73). `acknowledge` carries the IRQEN value the host tracks. -/
inductive Contract where
  | configure (c : Ch) (freq ctl audioctl : Byte)
  | render (nsamples : Nat)
  | build (length : Nat) (slice : Slice)
  | readRandom
  | rearmAll
  | setEnable (mask : Byte)
  | acknowledge (irqen mask : Byte)
  | writeSerout (byte : Byte)
  | readSerin
  | resetStatus
  | potgo
deriving DecidableEq, Repr

/-- `W AUDFc, v`. -/
def audfWrite (c : Ch) (v : Byte) : Instr :=
  match c with
  | .ch1 => .wAudf1 v
  | .ch2 => .wAudf2 v
  | .ch3 => .wAudf3 v
  | .ch4 => .wAudf4 v

/-- `W AUDCc, v`. -/
def audcWrite (c : Ch) (v : Byte) : Instr :=
  match c with
  | .ch1 => .wAudc1 v
  | .ch2 => .wAudc2 v
  | .ch3 => .wAudc3 v
  | .ch4 => .wAudc4 v

/-- The expansion of a contract into operations (`30_encoding.md` R73). -/
def expand : Contract → List Instr
  | .configure c freq ctl audioctl => [.wAudctl audioctl, audfWrite c freq, audcWrite c ctl]
  | .render n => [.render n]
  | .build n slice => [.build n slice]
  | .readRandom => [.rRandom]
  | .rearmAll => [.wStimer 0x00#8]
  | .setEnable mask => [.wIrqen mask]
  | .acknowledge irqen mask => [.wIrqen (irqen &&& ~~~mask), .wIrqen irqen]
  | .writeSerout byte => [.wSerout byte]
  | .readSerin => [.rSerin]
  | .resetStatus => [.wSkrest 0x00#8]
  | .potgo => [.wPotgo 0x00#8]

/-- Perform operations in order, stopping at the first fault or refusal. -/
def execAll : List Instr → State → Host.Outcome State Fault Refusal
  | [], s => .next s
  | i :: rest, s =>
    match exec i s with
    | .next t => execAll rest t
    | .fault r => .fault r
    | .refused r => .refused r

end Sys2Proof.Machine
end

