-- ==== Sys2Proof/Safety.lean ====
section
/-!
DEFINITION. What counts as a safe state and a safe run: the invariant of `10_state.md` R34, the settled states (R34 (i)),
and the per-tick machine that `42_scheduler.md` R144 compares the event-driven scheduler with.
-/

namespace Sys2Proof.Machine

/-- Settled: every deadline is `none` or greater than `now` (`10_state.md` R34 (i), `00_scope.md` R9). -/
abbrev State.Settled (s : State) : Prop := ∀ d ∈ deadlines s, s.now < d

/-- The invariant of `10_state.md` R34, with what the rules it cites say beside it. -/
structure State.Inv (s : State) : Prop where
  /-- The configuration meets `00_scope.md` R5. -/
  cfgValid : s.cfg.Valid
  /-- (a): the divisor is the formula of `41_channel.md` R101 on the current registers. -/
  divisorFormula : ∀ c, (s.ch c).divisor = .at (divisorOf s c)
  /-- (b): the counter is at most the divisor, or NEVER. -/
  counterBound : ∀ c n, (s.ch c).counter = .at n → n ≤ divisorOf s c
  /-- NEVER occurs on a counter only when `OPT_INAUDIBLE` is on (`10_state.md` R15). -/
  neverOnlyUnderOption : ∀ c, (s.ch c).counter = .never → s.cfg.optInaudible = true
  /-- `audible` is `Audible(c)` of the current registers (`41_channel.md` R103, R128). -/
  audibleFormula : ∀ c, (s.ch c).audible = audibleOf s c
  /-- `volume` is `Volume(c)`, halved for an inaudible channel under the option (`10_state.md` R17). -/
  volumeFormula : ∀ c, (s.ch c).volume =
    if s.cfg.optInaudible && !(s.ch c).audible then volumeOf s c >>> 1 else volumeOf s c
  /-- (c): a pending bit is always enabled. -/
  pendingEnabled : s.irqst &&& ~~~s.irqen = 0#8
  /-- (d): transmitting if and only if `ser_complete` is set. -/
  transmitting : s.skstat.getLsbD 1 = s.serComplete.isSome
  /-- (e): `ser_ready` comes before `ser_complete`. -/
  readyBeforeComplete : ∀ r, s.serReady = some r → ∃ d, s.serComplete = some d ∧ r < d
  /-- A timer's period and deadline are both set or both not, and a set period is above `TIMER_MIN` (`10_state.md` R27). -/
  timersArmed : ∀ k, (s.timer k).deadline.isSome = (s.timer k).period.isSome
  timerPeriodLong : ∀ k p, (s.timer k).period = some p → s.cfg.timerMin < p
  /-- (f): a pending conversion is marked converting and has a target, and its deadline is the start plus the target's
  units (`45_paddle.md` R191). -/
  potPending : ∀ i d, (s.pot i).deadline = some d →
    converting s i = true ∧ ∃ t, (s.pot i).target = some t ∧ d = s.potStart + t * s.potUnit
  /-- A converting input with a target has its deadline set. -/
  potRunning : ∀ i t, converting s i = true → (s.pot i).target = some t → (s.pot i).deadline.isSome = true
  /-- An input with a target that is not converting has reached it: the target is latched and its units have passed
  (`45_paddle.md` R195, R197). -/
  potDone : ∀ i t, converting s i = false → (s.pot i).target = some t →
    (s.pot i).latched = BitVec.ofNat 8 t ∧ s.potStart + t * s.potUnit ≤ s.now
  /-- A target is at most `POT_MAX` (`10_state.md` R32). -/
  potTargetBound : ∀ i t, (s.pot i).target = some t → t ≤ potMax
  /-- A latched value is at most `POT_MAX`. -/
  potLatchedBound : ∀ i, (s.pot i).latched.toNat ≤ potMax
  /-- `pot_unit >= 1` (`10_state.md` R32). -/
  potUnitPositive : 1 ≤ s.potUnit
  /-- The last POTGO and the last RANDOM read lie in the past. -/
  potStartPast : s.potStart ≤ s.now
  randLastPast : s.randLast ≤ s.now
  /-- (g): each gating index is `now` modulo its table length (`40_polynomial.md` R85), so below it. -/
  index4 : s.p4 = s.now % polyLen 4
  index5 : s.p5 = s.now % polyLen 5
  index9 : s.p9 = s.now % polyLen 9
  index17 : s.p17 = s.now % polyLen 17
  /-- (g): each random index is below its table length. -/
  random9 : s.r9 < polyLen 9
  random17 : s.r17 < polyLen 17
  /-- (h). -/
  fractBound : s.sampleFract < 256
  /-- (i). -/
  settled : s.Settled

/-- One tick of the per-tick machine of `42_scheduler.md` R144: each counter and `samplepos_whole` down by one, `now` and
each polynomial index up by one, then the events that are at zero or due, in id order. -/
def perTick (s : State) : State := processTick (advance 1 s)

/-- `n` ticks of the per-tick machine. -/
def perTicks : Nat → State → State
  | 0, s => s
  | n + 1, s => perTicks n (perTick s)

/-- Every candidate of the min-select lies in the future: no channel event and no sample boundary is waiting. -/
abbrev State.NothingWaiting (s : State) : Prop := ∀ n ∈ candidates s, 0 < n

/-- What the host has been told since a state whose trace was `old`, newest first. -/
def newEvents (old new : State) : List Logged :=
  new.env.trace.take (new.env.trace.length - old.env.trace.length)

/-- The samples among host events. -/
def samplesIn (l : List Logged) : List Nat :=
  l.filterMap fun e => match e.event with
    | .sample v => some v
    | _ => none

/-- The calls of the interrupt sink among host events, with their ticks. -/
def irqCallsIn (l : List Logged) : List (Nat × Byte) :=
  l.filterMap fun e => match e.event with
    | .irqSink m => some (e.tick, m)
    | _ => none

end Sys2Proof.Machine
end

