-- ==== Sys2Proof/Certificates/Slice0/Obligations.lean ====
section
/-!
DEFINITION. The statements for the provers. Where a statement gives a whole next state as a record update of the old one, that
equation is the instruction's result AND its frame: every field it does not name is unchanged. The formulas of the rules
are written out again here, from the rules, in `Sys2Proof.Reference`.
-/

namespace Sys2Proof.Reference

open Sys2Proof.Machine

/-- The host is told `e` at the tick of `s`. -/
def told (s : State) (e : HostEvent) : State :=
  { s with env := { s.env with trace := { tick := s.now, event := e } :: s.env.trace } }

/-- `Divisor(c)` of `41_channel.md` R101, from the register bytes. -/
def divisor (g : Config) (audctl f1 f2 f3 f4 : Byte) (c : Ch) : Nat :=
  let m := if audctl.getLsbD 0 then g.m15k else g.m64k
  let w12 := f2.toNat * 256 + f1.toNat
  let w34 := f4.toNat * 256 + f3.toNat
  max 1 <| match c with
    | .ch1 => if audctl.getLsbD 6 then f1.toNat + g.kHi else (f1.toNat + g.kLo) * m
    | .ch2 =>
      if audctl.getLsbD 4 then (if audctl.getLsbD 6 then w12 + g.kHiJoined else (w12 + g.kLo) * m)
      else (f2.toNat + g.kLo) * m
    | .ch3 => if audctl.getLsbD 5 then f3.toNat + g.kHi else (f3.toNat + g.kLo) * m
    | .ch4 =>
      if audctl.getLsbD 3 then (if audctl.getLsbD 5 then w34 + g.kHiJoined else (w34 + g.kLo) * m)
      else (f4.toNat + g.kLo) * m

/-- `Configure` of `41_channel.md` R108 on one channel record whose divisor is to be `d`: R102, R103, R104, R105. -/
def configured (g : Config) (d : Nat) (k : Channel) : Channel :=
  let vol := k.audc.toNat % 16
  let audible := vol != 0 &&
    !(g.optInaudible && k.audc.getLsbD 5 && decide (d < g.clock * 256 / g.sampleRate / 256))
  if g.optInaudible && !audible then
    { k with divisor := .at d, volume := vol * g.gain / 2, audible := false, output := true, counter := .never }
  else
    { k with
      divisor := .at d, volume := vol * g.gain, audible := audible
      counter := match k.counter with
        | .at n => .at (min n d)
        | .never => .at d }

/-- The output of a channel after its event and before the filter link, by the table of the toggle decision
(`41_channel.md` R119): with the gate closed the level stays, in pure tone it flips, else it takes the current bit. -/
def outputAfter (s : State) (k : Channel) : Bool :=
  let bit := fun (p : PolyParam) (i : Nat) => lfsrState p i % 2 == 1
  if k.audc.getLsbD 7 || bit param5 s.p5 then
    if k.audc.getLsbD 5 then !k.output
    else if k.audc.getLsbD 6 then bit param4 s.p4
    else if s.audctl.getLsbD 7 then bit param9 s.p9
    else bit param17 s.p17
  else k.output

/-- A channel record after its event and before the filter link (`41_channel.md` R120 to R123, R104). -/
def fired (s : State) (k : Channel) : Channel :=
  if s.cfg.optInaudible && !k.audible then { k with counter := .never, output := true }
  else { k with counter := k.divisor, output := outputAfter s k }

/-- `RaiseIrq(bits)` of `43_timer_irq.md` R156. -/
def raised (bits : Byte) (s : State) : State :=
  if bits &&& s.irqen = 0#8 then s
  else
    told { s with irqst := s.irqst ||| (bits &&& s.irqen) }
      (.irqSink ((s.irqst ||| (bits &&& s.irqen)) &&& s.irqen))

/-- What channel c adds to the mix (`41_channel.md` R125). -/
def adds (k : Channel) : Nat := if k.output = true ∨ k.audc.getLsbD 4 = true then k.volume else 0

/-- The event of channel c (`41_channel.md` R120 to R124): reload, toggle, filter link. -/
def channelEvent (c : Ch) (s : State) : State :=
  match c with
  | .ch1 => { s with
      ch1 := { fired s s.ch1 with output := (fired s s.ch1).output && !(s.audctl.getLsbD 2 && s.ch3.output) } }
  | .ch2 => { s with
      ch2 := { fired s s.ch2 with output := (fired s s.ch2).output && !(s.audctl.getLsbD 1 && s.ch4.output) } }
  | .ch3 => { s with
      ch3 := fired s s.ch3
      ch1 := { s.ch1 with output := s.ch1.output && !(s.audctl.getLsbD 2 && (fired s s.ch3).output) } }
  | .ch4 => { s with
      ch4 := fired s s.ch4
      ch2 := { s.ch2 with output := s.ch2.output && !(s.audctl.getLsbD 1 && (fired s s.ch4).output) } }

/-- The sample boundary (`42_scheduler.md` R137 to R140). -/
def sampled (s : State) : State :=
  { told s (.sample (min (adds s.ch1 + adds s.ch2 + adds s.ch3 + adds s.ch4) 32767)) with
    sampleWhole := s.sampleWhole + (s.sampleFract + s.cfg.clock * 256 / s.cfg.sampleRate) / 256
    sampleFract := (s.sampleFract + s.cfg.clock * 256 / s.cfg.sampleRate) % 256 }

/-- Timer k with its interrupt bit: its expiry if it is due (`43_timer_irq.md` R155, R157, R158). -/
def timerIfDue (bits : Byte) (k : TimerId) (s : State) : State :=
  match s.timer k with
  | { period := some p, deadline := some d } =>
    if d ≤ s.now then raised bits (s.setTimer k { period := some p, deadline := some (d + p) }) else s
  | _ => s

/-- "Ready" if it is due (`44_serial.md` R172). -/
def readyIfDue (s : State) : State :=
  match s.serReady with
  | some d => if d ≤ s.now then raised 0x10#8 { s with serReady := none } else s
  | none => s

/-- "Complete" if it is due (`44_serial.md` R173). -/
def completeIfDue (s : State) : State :=
  match s.serComplete with
  | some d =>
    if d ≤ s.now then raised 0x08#8 { s with serComplete := none, skstat := s.skstat &&& ~~~0x02#8 } else s
  | none => s

/-- The completion of input i if it is due (`45_paddle.md` R195). -/
def potIfDue (i : Fin 8) (s : State) : State :=
  match (s.pot i).deadline, (s.pot i).target with
  | some d, some t =>
    if d ≤ s.now then
      { s with
        allpot := s.allpot &&& ~~~(1#8 <<< i.val)
        pots := s.pots.set i { target := some t, deadline := none, latched := BitVec.ofNat 8 t } }
    else s
  | _, _ => s

/-- `Settle` (`42_scheduler.md` R143): T1, T2, T4, serial ready, serial complete, then the paddles from 0 to 7. -/
def settled (s : State) : State :=
  let s := timerIfDue 0x01#8 .t1 s
  let s := timerIfDue 0x02#8 .t2 s
  let s := timerIfDue 0x04#8 .t4 s
  let s := readyIfDue s
  let s := completeIfDue s
  potIfDue 7 (potIfDue 6 (potIfDue 5 (potIfDue 4 (potIfDue 3 (potIfDue 2 (potIfDue 1 (potIfDue 0 s)))))))

/-- A counter `e` ticks later (`42_scheduler.md` R133). -/
def counted (e : Nat) : Ticks → Ticks
  | .at n => .at (n - e)
  | .never => .never

/-- `Advance(e)` (`42_scheduler.md` R133 with `40_polynomial.md` R85). -/
def advanced (e : Nat) (s : State) : State :=
  { s with
    ch1 := { s.ch1 with counter := counted e s.ch1.counter }
    ch2 := { s.ch2 with counter := counted e s.ch2.counter }
    ch3 := { s.ch3 with counter := counted e s.ch3.counter }
    ch4 := { s.ch4 with counter := counted e s.ch4.counter }
    sampleWhole := s.sampleWhole - e
    now := s.now + e
    p4 := (s.p4 + e) % 15
    p5 := (s.p5 + e) % 31
    p9 := (s.p9 + e) % 511
    p17 := (s.p17 + e) % 131071 }

/-- What happens on the tick of `s` (`42_scheduler.md` R134, R135): the channels whose counter is 0 in `s` (decided once) in
the order CH1 to CH4, then the sample boundary, then the deadlines. -/
def tick (s : State) : State :=
  let a := if s.ch1.counter = .at 0 then channelEvent .ch1 s else s
  let b := if s.ch2.counter = .at 0 then channelEvent .ch2 a else a
  let c := if s.ch3.counter = .at 0 then channelEvent .ch3 b else b
  let d := if s.ch4.counter = .at 0 then channelEvent .ch4 c else c
  settled (if d.sampleWhole = 0 then sampled d else d)

/-- The timer record expires at tick `n` while it keeps its period (`43_timer_irq.md` R161). -/
def expiresAt (k : Timer) (n : Nat) : Bool :=
  match k.period, k.deadline with
  | some p, some d => decide (d ≤ n) && (n - d) % p == 0
  | _, _ => false

end Sys2Proof.Reference

open Sys2Proof Sys2Proof.Machine

/-! ### Encoding and stepping -/

/-- Decoding the encoding of a well-formed operation gives it back, for every operation and every operand
(`30_encoding.md` R61 to R63, R71). -/
def Obligations.DecodingAnEncodedInstructionGivesItBack : Prop :=
  ∀ i : Instr, i.WellFormed → decode (encode i) = .ok i

/-- There is no illegal transaction word: each decodes to a well-formed operation, whose encoding has the same `W` and
`OFF` (mask 0x1FF00), and for a write the same `DATA`; the `DATA` of a read selects nothing (`30_encoding.md` R61, R69). -/
def Obligations.EveryTransactionWordIsAnOperation : Prop :=
  ∀ w : BusWord,
    (∃ i w', decode (.bus w) = .ok i ∧ i.WellFormed ∧ encode i = .bus w' ∧
      w' &&& 0x1FF00#17 = w &&& 0x1FF00#17 ∧ (w.getLsbD 16 = true → w' = w)) ∧
    ∀ v : BusWord, w.getLsbD 16 = false → v &&& 0x1FF00#17 = w &&& 0x1FF00#17 →
      decode (.bus v) = decode (.bus w)

/-- Ids 0 to 17 are the events, ids 18 to 31 are reserved and refused by name (`30_encoding.md` R62). -/
def Obligations.EventIdsDecodeOrAreReserved : Prop :=
  ∀ id : EventId,
    (id.toNat < 18 → ∃ i, decode (.event id) = .ok i ∧ encode i = .event id) ∧
    (18 ≤ id.toNat → decode (.event id) = .error (.reservedEvent id.toNat))

/-- Words written out from `30_encoding.md` R61, R62 decode to the operations they stand for, one per family. -/
def Obligations.WrittenOutWordsDecode : Prop :=
  decodeTableWord 24 0b1_00000001_10101111 = some (.wAudc1 0xAF) ∧
  decodeTableWord 24 0b1_00001000_01010000 = some (.wAudctl 0x50) ∧
  decodeTableWord 24 0b1_00001110_00000111 = some (.wIrqen 0x07) ∧
  decodeTableWord 24 0b1_00001101_01000001 = some (.wSerout 0x41) ∧
  decodeTableWord 24 0b1_00011010_01010101 = some (.wOutOfRange 0x1A 0x55) ∧
  decodeTableWord 24 0b0_00000011_00000000 = some .rPot3 ∧
  decodeTableWord 24 0b0_00001010_01111111 = some .rRandom ∧
  decodeTableWord 24 0b0_00011010_00000000 = some (.rOutOfRange 0x1A) ∧
  decodeTableWord 8 0b00111 = some .evT4 ∧
  decodeTableWord 8 0b10001 = some .evPot7 ∧
  decodeTableWord 8 0b10010 = none

/-- A step performs the oldest operation the host has issued, at the state without it, and is `exec` of that operation;
a request that is no operation is refused by name; with nothing issued nothing changes; and an operation placed by
`withFetchWord` is the next performed. The queue of issued operations is the model's (log entry 1). -/
def Obligations.StepPerformsTheOldestIssuedOperation : Prop :=
  (∀ (s : State) r rest i, s.env.inbox = .operation r :: rest → decode r = .ok i →
    step s = exec i { s with env := { s.env with inbox := rest } }) ∧
  (∀ (s : State) r rest e, s.env.inbox = .operation r :: rest → decode r = .error e →
    step s = .refused (.undecodable e)) ∧
  (∀ s : State, s.env.inbox = [] → step s = .next s) ∧
  (∀ (s : State) nbits w i, decodeTableWord nbits w = some i → step (s.withFetchWord nbits w) = exec i s)

/-- The two optional host hooks OR error bits into SKSTAT and store KBCODE, and do nothing else (`44_serial.md` R177,
`46_register_interface.md` R212). That they arrive through the queue is the model's choice (log entry 13). -/
def Obligations.HostHooksSetOnlyTheirBits : Prop :=
  (∀ (s : State) rest (e : BitVec 3), s.env.inbox = .setError e :: rest →
    step s = .next { s with
      skstat := s.skstat ||| BitVec.ofNat 8 (e.toNat * 32), env := { s.env with inbox := rest } }) ∧
  (∀ (s : State) rest (b : Byte), s.env.inbox = .setKbcode b :: rest →
    step s = .next { s with kbcode := b, env := { s.env with inbox := rest } })

/-- Every step takes exactly one thing off the host's queue and leaves the configuration alone (`00_scope.md` R5, R8). -/
def Obligations.StepTakesOneItemAndKeepsTheConfiguration : Prop :=
  ∀ s t : State, step s = .next t → t.env.inbox = s.env.inbox.tail ∧ t.cfg = s.cfg

/-- What the host has been told is never changed afterwards: every operation only adds to it (`20_memory.md` R54). -/
def Obligations.WhatTheHostWasToldStands : Prop :=
  ∀ i (s t : State), exec i s = .next t → ∃ l, t.env.trace = l ++ s.env.trace

/-! ### Reset and the invariant -/

/-- `RESET` (`70_reset_and_hazards.md` R250) leaves every field at its row of the table of `10_state.md` R35. That the
configuration and the host's side, its queue included, stay as they are is the model's reading (log entry 10). -/
def Obligations.ResetLeavesTheResetTable : Prop :=
  ∀ s : State, s.cfg.Valid → ∃ t : State, exec .reset s = .next t ∧
    t.cfg = s.cfg ∧ t.env = s.env ∧ t.now = 0 ∧
    (∀ c, t.ch c = {
      audf := 0x00, audc := 0x00, divisor := .at ((0 + s.cfg.kLo) * s.cfg.m64k)
      counter := .at ((0 + s.cfg.kLo) * s.cfg.m64k), output := false, volume := 0, audible := false }) ∧
    t.audctl = 0x00 ∧ t.skctl = 0x03 ∧ t.skstat = 0x00 ∧ t.irqen = 0x00 ∧ t.irqst = 0x00 ∧
    t.serout = 0x00 ∧ t.serin = 0x00 ∧ t.kbcode = s.cfg.kbcodeReset ∧
    t.serReady = none ∧ t.serComplete = none ∧
    (∀ k, t.timer k = { period := none, deadline := none }) ∧
    t.p4 = 0 ∧ t.p5 = 0 ∧ t.p9 = 0 ∧ t.p17 = 0 ∧ t.r9 = 0 ∧ t.r17 = 0 ∧ t.randLast = 0 ∧
    t.allpot = 0x00 ∧ (∀ i, t.pot i = { target := none, deadline := none, latched := 0x00 }) ∧
    t.potStart = 0 ∧ t.potUnit = s.cfg.potUnitSlow ∧
    t.sampleWhole = (s.cfg.clock * 256 / s.cfg.sampleRate) / 256 ∧
    t.sampleFract = (s.cfg.clock * 256 / s.cfg.sampleRate) % 256

/-- A configuration that violates a constraint (`00_scope.md` R5, `45_paddle.md` R198) is refused at `RESET` (the place is the model's choice,
log entry 10). -/
def Obligations.ResetRefusesAnInvalidConfiguration : Prop :=
  ∀ s : State, ¬ s.cfg.Valid → exec .reset s = .refused .invalidConfiguration

/-- The invariant of `10_state.md` R34 holds at reset, whatever the configuration and the host's side. -/
def Obligations.InvariantHoldsAtReset : Prop :=
  ∀ (g : Config) (e : HostSide), g.Valid → (State.resetFor g e).Inv

/-- The invariant of `10_state.md` R34 is kept by every step from every state that meets it. -/
def Obligations.EveryStepKeepsTheInvariant : Prop :=
  ∀ s t : State, s.Inv → step s = .next t → t.Inv

/-- Every operation is total: from every state of the invariant every well-formed operation gives a next state
(`60_exceptions.md` R230, `70_reset_and_hazards.md` R253, `42_scheduler.md` R145). -/
def Obligations.EveryWellFormedOperationCompletes : Prop :=
  ∀ (i : Instr) (s : State), s.Inv → i.WellFormed → ∃ t, exec i s = .next t

/-! ### Polynomial and random generator -/

/-- `BUILD n` returns the `2^n - 1` entries `slice(x_0), slice(x_1), …` of the recurrence from the seed 0 and changes
nothing else (`40_polynomial.md` R80 to R83), whenever it is presented (log entry 18). What has no table is
refused: the other lengths by `30_encoding.md` R63, a random slice of length 4 or 5 as the model's choice (log entry 14). -/
def Obligations.BuildReturnsTheRecurrenceTable : Prop :=
  (∀ s : State, ∀ q ∈ ([(4, 3, 1, 0x4), (5, 3, 2, 0x8), (9, 2, 7, 0x80), (17, 7, 10, 0x18000)] : List (Nat × Nat × Nat × Nat)),
    ∀ sl : Slice, (sl = .random → q.1 = 9 ∨ q.1 = 17) →
    ∃ (x : Nat → Nat) (entries : List Nat),
      x 0 = 0 ∧
      (∀ i, x (i + 1) = ((x i <<< q.2.1) + (x i >>> q.2.2.1) + q.2.2.2) &&& (2 ^ q.1 - 1)) ∧
      entries.length = 2 ^ q.1 - 1 ∧
      (∀ i, i < 2 ^ q.1 - 1 → entries[i]? = some (match sl with
        | .gate => x i % 2
        | .random => if q.1 = 17 then (x i / 64) % 256 else x i % 256)) ∧
      exec (.build q.1 sl) s = .next (Reference.told s (.tableBuilt entries))) ∧
  (∀ (s : State) n sl, (n ∉ [4, 5, 9, 17] ∨ (sl = .random ∧ n ∉ [9, 17])) →
    exec (.build n sl) s = .refused (.tableLengthMismatch n))

/-- Maximal length (`40_polynomial.md` R84) for the parameter sets of R81: the `2^n - 1` successive states of the recurrence
from the seed 0 are pairwise distinct, the step after the last gives the seed again, and the one n-bit value never visited is
the fixed point that R81 lists. -/
def Obligations.LfsrSequencesHaveMaximalLength : Prop :=
  [param4, param5, param9, param17] = [
    { length := 4, left := 3, right := 1, add := 0x00004 }, { length := 5, left := 3, right := 2, add := 0x00008 },
    { length := 9, left := 2, right := 7, add := 0x00080 }, { length := 17, left := 7, right := 10, add := 0x18000 }] ∧
  ∀ q ∈ [(param4, 0x8), (param5, 0x15), (param9, 0x12A), (param17, 0x09224)],
    (∀ x, lfsrNext q.1 x = ((x <<< q.1.left) + (x >>> q.1.right) + q.1.add) &&& (2 ^ q.1.length - 1)) ∧
    (∀ i j, i < j → j < 2 ^ q.1.length - 1 → lfsrState q.1 i ≠ lfsrState q.1 j) ∧
    lfsrNext q.1 (lfsrState q.1 (2 ^ q.1.length - 2)) = 0 ∧
    lfsrNext q.1 q.2 = q.2 ∧
    ∀ x, x < 2 ^ q.1.length → ((∀ i, lfsrState q.1 i ≠ x) ↔ x = q.2)

/-- `R_RANDOM` (`40_polynomial.md` R87): with the reset-control set both indices advance by the elapsed ticks modulo their
table lengths, else both become 0; the read returns the complement of the selected table's entry; nothing else changes. -/
def Obligations.RandomReadAdvancesAndComplements : Prop :=
  ∀ s : State,
    let running := s.skctl.toNat % 4 ≠ 0
    let i9 := if running then (s.r9 + (s.now - s.randLast)) % 511 else 0
    let i17 := if running then (s.r17 + (s.now - s.randLast)) % 131071 else 0
    let entry := if s.audctl.getLsbD 7 then lfsrState param9 i9 % 256 else lfsrState param17 i17 / 64 % 256
    exec .rRandom s = .next (Reference.told { s with r9 := i9, r17 := i17, randLast := s.now }
      (.readReturned (0xFF#8 ^^^ BitVec.ofNat 8 entry)))

/-- The law of the RANDOM register (`40_polynomial.md` R89): between two reads lies any sequence of operations without a RANDOM
read and without a RESET (register writes, other reads, any number of `RENDER`s, events), over which D ticks elapse. If the
reset-control is set at the second read, each index has moved by D modulo its table length; with the reset-control clear a
read returns 0xFF. -/
def Obligations.RandomIndexMovesByElapsedTicks : Prop :=
  (∀ (s t u v : State) (l : List Instr), exec .rRandom s = .next t → .rRandom ∉ l → .reset ∉ l →
    execAll l t = .next u → u.skctl.toNat % 4 ≠ 0 → exec .rRandom u = .next v →
    t.now ≤ u.now ∧ v.r9 = (t.r9 + (u.now - t.now)) % 511 ∧ v.r17 = (t.r17 + (u.now - t.now)) % 131071) ∧
  (∀ s t : State, s.skctl.toNat % 4 = 0 → exec .rRandom s = .next t →
    t.env.trace = { tick := s.now, event := .readReturned 0xFF#8 } :: s.env.trace)

/-- Time and the gating indices move only in `RENDER` and `RESET`, and in `RENDER` each index moves by the elapsed ticks
modulo its table length (`10_state.md` R11, `40_polynomial.md` R85, `00_scope.md` R8). -/
def Obligations.OnlyRenderMovesTimeAndIndices : Prop :=
  (∀ i (s t : State), i ≠ .reset → (∀ n, i ≠ .render n) → exec i s = .next t →
    t.now = s.now ∧ t.p4 = s.p4 ∧ t.p5 = s.p5 ∧ t.p9 = s.p9 ∧ t.p17 = s.p17) ∧
  (∀ n (s t : State), s.p4 < 15 → s.p5 < 31 → s.p9 < 511 → s.p17 < 131071 → exec (.render n) s = .next t →
    s.now ≤ t.now ∧ t.p4 = (s.p4 + (t.now - s.now)) % 15 ∧ t.p5 = (s.p5 + (t.now - s.now)) % 31 ∧
    t.p9 = (s.p9 + (t.now - s.now)) % 511 ∧ t.p17 = (s.p17 + (t.now - s.now)) % 131071)

/-! ### Channel core -/

/-- The AUDF writes (`41_channel.md` R110 to R113): the byte is stored, the channel reconfigured, and for CH1 and CH3 the
joined partner too; nothing else changes. -/
def Obligations.AudfWritesReconfigure : Prop :=
  ∀ (s : State) (v : Byte), s.Settled →
    (let d := Reference.divisor s.cfg s.audctl v s.ch2.audf s.ch3.audf s.ch4.audf
     exec (.wAudf1 v) s = .next { s with
       ch1 := Reference.configured s.cfg (d .ch1) { s.ch1 with audf := v }
       ch2 := if s.audctl.getLsbD 4 then Reference.configured s.cfg (d .ch2) s.ch2 else s.ch2 }) ∧
    (let d := Reference.divisor s.cfg s.audctl s.ch1.audf v s.ch3.audf s.ch4.audf
     exec (.wAudf2 v) s = .next { s with ch2 := Reference.configured s.cfg (d .ch2) { s.ch2 with audf := v } }) ∧
    (let d := Reference.divisor s.cfg s.audctl s.ch1.audf s.ch2.audf v s.ch4.audf
     exec (.wAudf3 v) s = .next { s with
       ch3 := Reference.configured s.cfg (d .ch3) { s.ch3 with audf := v }
       ch4 := if s.audctl.getLsbD 3 then Reference.configured s.cfg (d .ch4) s.ch4 else s.ch4 }) ∧
    (let d := Reference.divisor s.cfg s.audctl s.ch1.audf s.ch2.audf s.ch3.audf v
     exec (.wAudf4 v) s = .next { s with ch4 := Reference.configured s.cfg (d .ch4) { s.ch4 with audf := v } })

/-- The AUDC writes (`41_channel.md` R114 to R117): the byte is stored and the channel reconfigured; nothing else changes. -/
def Obligations.AudcWritesReconfigure : Prop :=
  ∀ (s : State) (v : Byte), s.Settled →
    let d := Reference.divisor s.cfg s.audctl s.ch1.audf s.ch2.audf s.ch3.audf s.ch4.audf
    exec (.wAudc1 v) s = .next { s with ch1 := Reference.configured s.cfg (d .ch1) { s.ch1 with audc := v } } ∧
    exec (.wAudc2 v) s = .next { s with ch2 := Reference.configured s.cfg (d .ch2) { s.ch2 with audc := v } } ∧
    exec (.wAudc3 v) s = .next { s with ch3 := Reference.configured s.cfg (d .ch3) { s.ch3 with audc := v } } ∧
    exec (.wAudc4 v) s = .next { s with ch4 := Reference.configured s.cfg (d .ch4) { s.ch4 with audc := v } }

/-- The AUDCTL write (`41_channel.md` R118): the byte is stored and all four channels reconfigured; nothing else changes. -/
def Obligations.AudctlWriteReconfiguresAllChannels : Prop :=
  ∀ (s : State) (v : Byte), s.Settled →
    let d := Reference.divisor s.cfg v s.ch1.audf s.ch2.audf s.ch3.audf s.ch4.audf
    exec (.wAudctl v) s = .next { s with
      audctl := v
      ch1 := Reference.configured s.cfg (d .ch1) s.ch1
      ch2 := Reference.configured s.cfg (d .ch2) s.ch2
      ch3 := Reference.configured s.cfg (d .ch3) s.ch3
      ch4 := Reference.configured s.cfg (d .ch4) s.ch4 }

/-- `Configure(c)` is idempotent (`41_channel.md` R108). -/
def Obligations.ConfigureTwiceIsConfigureOnce : Prop :=
  ∀ (c : Ch) (s : State), configure c (configure c s) = configure c s

/-- The order of the writes does not matter for divisor, volume and audible: two runs of operations from one
state that end with the same AUDF, AUDC and AUDCTL bytes end with the same three (`41_channel.md` R128). -/
def Obligations.ConfigurationIgnoresWriteOrder : Prop :=
  ∀ (s t u : State) (l m : List Instr), s.Inv → execAll l s = .next t → execAll m s = .next u →
    t.audctl = u.audctl → (∀ c, (t.ch c).audf = (u.ch c).audf ∧ (t.ch c).audc = (u.ch c).audc) →
    ∀ c, (t.ch c).divisor = (u.ch c).divisor ∧ (t.ch c).volume = (u.ch c).volume ∧
      (t.ch c).audible = (u.ch c).audible

/-- With the spec's constants every divisor lies between 4 and 7,471,104, so the clamp to 1 never acts
(`41_channel.md` R101, `10_state.md` R14). -/
def Obligations.DivisorsStayInTheirRange : Prop :=
  ∀ (s : State) (c : Ch), s.cfg.kLo = 1 → s.cfg.kHi = 4 → s.cfg.kHiJoined = 7 → s.cfg.m64k = 28 → s.cfg.m15k = 114 →
    4 ≤ rawDivisor s c ∧ rawDivisor s c ≤ 7471104

/-- The channel events (`41_channel.md` R120 to R123 with R119, R104, R124): reload, toggle, filter link; nothing else
changes. -/
def Obligations.ChannelEventsReloadToggleAndFilter : Prop :=
  ∀ s : State,
    exec .evCh1 s = .next (Reference.channelEvent .ch1 s) ∧ exec .evCh2 s = .next (Reference.channelEvent .ch2 s) ∧
    exec .evCh3 s = .next (Reference.channelEvent .ch3 s) ∧ exec .evCh4 s = .next (Reference.channelEvent .ch4 s)

/-- After any event of a member of a linked pair, the partner HIGH implies the filtered channel LOW (`41_channel.md`
R124). -/
def Obligations.FilterLinkForcesTheFilteredChannelLow : Prop :=
  ∀ (i : Instr) (s t : State), exec i s = .next t →
    (i ∈ [.evCh1, .evCh3] → s.audctl.getLsbD 2 = true → t.ch3.output = true → t.ch1.output = false) ∧
    (i ∈ [.evCh2, .evCh4] → s.audctl.getLsbD 1 = true → t.ch4.output = true → t.ch2.output = false)

/-- Pure-tone period (`41_channel.md` R127): a pure tone with the 5-bit gate bypassed and no filter link toggles once when
its counter runs out and then once every `divisor` ticks, however many samples a `RENDER` asks for. -/
def Obligations.PureToneTogglesOncePerDivisor : Prop :=
  ∀ (s t : State) (c : Ch) (n k d : Nat), s.Inv → s.cfg.optInaudible = false →
    (s.ch c).audc.getLsbD 7 = true → (s.ch c).audc.getLsbD 5 = true →
    (c = .ch1 → s.audctl.getLsbD 2 = false) → (c = .ch2 → s.audctl.getLsbD 1 = false) →
    (s.ch c).counter = .at k → (s.ch c).divisor = .at d → 0 < n → exec (.render n) s = .next t →
    let elapsed := t.now - s.now
    let events := if elapsed < k then 0 else 1 + (elapsed - k) / d
    (t.ch c).output = ((s.ch c).output != (events % 2 == 1))

/-- A channel with volume 0 never contributes to the mixed sum (`41_channel.md` R103, R125). -/
def Obligations.SilentChannelsContributeNothing : Prop :=
  ∀ (s : State) (c : Ch), s.Inv → (s.ch c).audc.toNat % 16 = 0 → contribution s c = 0

/-! ### Scheduler and mixer -/

/-- `EV_SAMPLE` (`42_scheduler.md` R137, R139, R140): the sum of the contributions, clamped to 32767, is emitted, and the
24.8 accumulator takes one step; nothing else changes. -/
def Obligations.SampleEventEmitsTheClampedSum : Prop :=
  ∀ s : State, exec .evSample s = .next (Reference.sampled s)

/-- `RENDER n` completes and emits exactly `n` samples, each in 0..32767 (`42_scheduler.md` R136, R140, R145), and changes no
register the host writes, nothing of the paddle start, the RANDOM indices, the configuration or the host's issued
operations and answers. -/
def Obligations.RenderCompletesWithItsSamples : Prop :=
  ∀ (s : State) (n : Nat), s.Inv → ∃ t : State, exec (.render n) s = .next t ∧
    (samplesIn (newEvents s t)).length = n ∧ (∀ v ∈ samplesIn (newEvents s t), v ≤ 32767) ∧
    t.env.trace = newEvents s t ++ s.env.trace ∧ s.now ≤ t.now ∧
    t.cfg = s.cfg ∧ (∀ c, (t.ch c).audf = (s.ch c).audf ∧ (t.ch c).audc = (s.ch c).audc ∧
      (t.ch c).divisor = (s.ch c).divisor ∧ (t.ch c).volume = (s.ch c).volume ∧ (t.ch c).audible = (s.ch c).audible) ∧
    t.audctl = s.audctl ∧ t.skctl = s.skctl ∧ t.irqen = s.irqen ∧ t.kbcode = s.kbcode ∧ t.serout = s.serout ∧
    t.serin = s.serin ∧ (∀ k, (t.timer k).period = (s.timer k).period) ∧ t.r9 = s.r9 ∧ t.r17 = s.r17 ∧
    t.randLast = s.randLast ∧ (∀ i, (t.pot i).target = (s.pot i).target) ∧ t.potStart = s.potStart ∧
    t.potUnit = s.potUnit ∧ t.env = { s.env with trace := t.env.trace }

/-- Step-size independence (`42_scheduler.md` R144): `RENDER a` followed at once by `RENDER b` gives the same samples, port calls
and end state as `RENDER (a + b)`; and `RENDER 0` changes nothing in a settled state (R136). -/
def Obligations.RenderSplitsAnywhere : Prop :=
  (∀ (s t : State) (a b : Nat), s.Inv → exec (.render a) s = .next t → exec (.render (a + b)) s = exec (.render b) t) ∧
  (∀ s : State, s.Settled → exec (.render 0) s = .next s)

/-- The sample grid (`42_scheduler.md` R138): `RENDER` stops on the tick of its last sample, and `n` samples move the
accumulator by exactly `n` steps; from reset the `n`-th sample falls at tick `floor(n * STEP_24_8 / 256)`. -/
def Obligations.SamplesFallOnTheFixedPointGrid : Prop :=
  (∀ (s t : State) (n : Nat), s.Inv → 0 < n → exec (.render n) s = .next t →
    t.now = (256 * (s.now + s.sampleWhole) + s.sampleFract + (n - 1) * s.cfg.step248) / 256 ∧
    256 * (t.now + t.sampleWhole) + t.sampleFract =
      256 * (s.now + s.sampleWhole) + s.sampleFract + n * s.cfg.step248) ∧
  (∀ (g : Config) (e : HostSide) (t : State) (n : Nat), g.Valid → 0 < n →
    exec (.render n) (State.resetFor g e) = .next t → t.now = n * (g.clock * 256 / g.sampleRate) / 256)

/-- A scheduler step (`42_scheduler.md` R135): advance by the min-select, then the events of that tick in the fixed order of R134:
CH1, CH2, CH3, CH4 (those at zero after the advance), the sample boundary, and by `Settle` (R143) T1, T2, T4, serial ready,
serial complete, the paddles from 0 to 7. The step equals the per-tick machine, whose every tick is the same
composition one tick on, run for as many ticks as the min-select gives (R144). -/
def Obligations.SchedStepRefinesThePerTickMachine : Prop :=
  (∀ s : State, schedStep s = Reference.tick (Reference.advanced (minSelect s) s)) ∧
  (∀ s : State, settle s = Reference.settled s) ∧
  (∀ s : State, perTick s = Reference.tick (Reference.advanced 1 s)) ∧
  (∀ s : State, s.NothingWaiting → schedStep s = perTicks (minSelect s) s)

/-- The min-select is the least of the candidates (`42_scheduler.md` R131, R132). -/
def Obligations.MinSelectIsTheLeastCandidate : Prop :=
  ∀ s : State, minSelect s ∈ candidates s ∧ ∀ n ∈ candidates s, minSelect s ≤ n

/-- `Advance(0)` is the identity where the indices are below their table lengths, and `Advance(a + b)` is
`Advance(a); Advance(b)` (`42_scheduler.md` R133). -/
def Obligations.AdvanceSplitsAndZeroIsIdentity : Prop :=
  (∀ (s : State) (a b : Nat), advance (a + b) s = advance b (advance a s)) ∧
  (∀ s : State, s.p4 < 15 → s.p5 < 31 → s.p9 < 511 → s.p17 < 131071 → advance 0 s = s)

/-- `Settle` leaves nothing due, where every armed timer's next deadline lies ahead and every pending conversion has its
target (`42_scheduler.md` R143). -/
def Obligations.SettleLeavesNothingDue : Prop :=
  ∀ s : State, (∀ k d, (s.timer k).deadline = some d → ∃ p, (s.timer k).period = some p ∧ s.now < d + p) →
    (∀ i d, (s.pot i).deadline = some d → (s.pot i).target.isSome = true) → (settle s).Settled

/-! ### Timers and interrupts -/

/-- `W_STIMER` (`43_timer_irq.md` R151, R152): all four counters 0, each timer re-armed at its full period where the divisor
exceeds `TIMER_MIN`, a joined CH1+CH2 giving both T1 and T2 the divisor of CH2; nothing else changes. -/
def Obligations.StimerRearmsAllTimers : Prop :=
  ∀ (s : State) (v : Byte) (d1 d2 d4 : Nat), s.Settled → s.ch1.divisor = .at d1 → s.ch2.divisor = .at d2 →
    s.ch4.divisor = .at d4 →
    let armed := fun (d : Nat) =>
      if s.cfg.timerMin < d then ({ period := some d, deadline := some (s.now + d) } : Timer)
      else { period := none, deadline := none }
    exec (.wStimer v) s = .next { s with
      ch1 := { s.ch1 with counter := .at 0 }
      ch2 := { s.ch2 with counter := .at 0 }
      ch3 := { s.ch3 with counter := .at 0 }
      ch4 := { s.ch4 with counter := .at 0 }
      t1 := armed (if s.audctl.getLsbD 4 then d2 else d1)
      t2 := armed d2
      t4 := armed d4 }

/-- `W_IRQEN` (`43_timer_irq.md` R153): pending bits whose enable is written 0 are cleared, the mask is stored, no sink is
called, nothing else changes. -/
def Obligations.IrqenWriteAcknowledgesAndEnables : Prop :=
  ∀ (s : State) (v : Byte), s.Settled → exec (.wIrqen v) s = .next { s with irqst := s.irqst &&& v, irqen := v }

/-- The reads of IRQST and SKSTAT return the complements and change nothing (`43_timer_irq.md` R154, `44_serial.md` R176). -/
def Obligations.StatusReadsReturnComplements : Prop :=
  ∀ s : State, exec .rIrqst s = .next (Reference.told s (.readReturned (0xFF#8 ^^^ s.irqst))) ∧
    exec .rSkstat s = .next (Reference.told s (.readReturned (0xFF#8 ^^^ s.skstat)))

/-- A due timer expiry (`43_timer_irq.md` R155, R157, R158 with R156): the deadline moves one period on, and an enabled source
becomes pending and calls the sink once; nothing else changes. -/
def Obligations.DueTimerExpiryReschedulesAndRaises : Prop :=
  ∀ (s : State) (d p : Nat), d ≤ s.now →
    (s.t1 = { period := some p, deadline := some d } →
      exec .evT1 s = .next (Reference.raised 0x01#8 { s with t1 := { period := some p, deadline := some (d + p) } })) ∧
    (s.t2 = { period := some p, deadline := some d } →
      exec .evT2 s = .next (Reference.raised 0x02#8 { s with t2 := { period := some p, deadline := some (d + p) } })) ∧
    (s.t4 = { period := some p, deadline := some d } →
      exec .evT4 s = .next (Reference.raised 0x04#8 { s with t4 := { period := some p, deadline := some (d + p) } }))

/-- A deadline event presented when it is not due changes nothing: the model's reading of the precondition through the guard
of `Settle` (log entry 5). -/
def Obligations.EventsNotDueChangeNothing : Prop :=
  ∀ (s : State), s.Settled → ∀ i ∈ ([.evT1, .evT2, .evT4, .evSerReady, .evSerComplete, .evPot0, .evPot1, .evPot2, .evPot3,
    .evPot4, .evPot5, .evPot6, .evPot7] : List Instr), exec i s = .next s

/-- The expiries of a timer are its deadline and every period after it (`43_timer_irq.md` R161): after any `RENDER` the deadline is
the old one plus a whole number of periods, the first such tick after `now`. -/
def Obligations.TimerExpiriesAreWholePeriods : Prop :=
  ∀ (s t : State) (k : TimerId) (n d p : Nat), s.Inv → s.timer k = { period := some p, deadline := some d } →
    exec (.render n) s = .next t →
    ∃ m, t.timer k = { period := some p, deadline := some (d + m * p) } ∧ t.now < d + m * p ∧
      (m ≠ 0 → d + (m - 1) * p ≤ t.now)

/-- A pending bit is cleared only by the IRQEN write and by reset (`10_state.md` R24). -/
def Obligations.PendingBitsStandUntilAcknowledged : Prop :=
  ∀ (i : Instr) (s t : State), (∀ v, i ≠ .wIrqen v) → i ≠ .reset → exec i s = .next t → s.irqst &&& ~~~t.irqst = 0#8

/-- Only an enabled source becomes pending, and none of bits 7:5 ever does (`43_timer_irq.md` R156, `60_exceptions.md`
R232). -/
def Obligations.OnlyEnabledSourcesBecomePending : Prop :=
  ∀ (i : Instr) (s t : State), exec i s = .next t → (∀ v, i ≠ .wIrqen v) → i ≠ .reset →
    t.irqen = s.irqen ∧ t.irqst &&& ~~~s.irqst &&& ~~~(s.irqen &&& 0x1F#8) = 0#8

/-- The source's `acknowledge(mask)` contract (`30_encoding.md` R73, `60_exceptions.md` R236): the two IRQEN writes clear exactly
the pending bits of the mask and leave the enables as they were. -/
def Obligations.AcknowledgeContractClearsTheMask : Prop :=
  ∀ (s : State) (mask : Byte), s.Inv →
    execAll (expand (.acknowledge s.irqen mask)) s = .next { s with irqst := s.irqst &&& ~~~mask }

/-! ### Serial unit -/

/-- `W_SEROUT` (`44_serial.md` R171): the byte is stored and handed to the sink, the transmitting bit is set, and both deadlines are
set anew; nothing else changes. -/
def Obligations.SeroutWriteStartsTransmission : Prop :=
  ∀ (s : State) (v : Byte), s.Settled → s.cfg.Valid →
    exec (.wSerout v) s = .next { Reference.told s (.serialOut v) with
      serout := v
      skstat := s.skstat ||| 0x02#8
      serReady := some (s.now + s.cfg.clock * 200 / 1000000)
      serComplete := some (s.now + s.cfg.clock * 2000 / 1000000) }

/-- The due serial events (`44_serial.md` R172, R173 with `43_timer_irq.md` R156); nothing else changes. -/
def Obligations.DueSerialEventsRaiseTheirInterrupts : Prop :=
  ∀ (s : State) (d : Nat), d ≤ s.now →
    (s.serReady = some d → exec .evSerReady s = .next (Reference.raised 0x10#8 { s with serReady := none })) ∧
    (s.serComplete = some d →
      exec .evSerComplete s = .next (Reference.raised 0x08#8
        { s with serComplete := none, skstat := s.skstat &&& ~~~0x02#8 }))

/-- `R_SERIN` (`44_serial.md` R174): one byte of the provider is stored and returned; nothing else changes. -/
def Obligations.SerinReadTakesOneProviderByte : Prop :=
  ∀ (s : State) (b : Byte) rest, s.env.serialAnswers = b :: rest →
    exec .rSerin s = .next (Reference.told { s with serin := b, env := { s.env with serialAnswers := rest } } (.readReturned b))

/-- Transmission raises "ready" then "complete", each once and only where its enable is set, whatever the grouping into `RENDER`s
(`44_serial.md` R178). Over `RENDER`s past both delays, on every tick the sink is called once for each enabled timer that
expires there (`43_timer_irq.md` R161), once more on the ready tick if bit 4 is enabled, and once more on the complete tick if
bit 3 is; the serial bits are newly set by just these calls. With no timer armed these are all the calls. -/
def Obligations.TransmissionRaisesReadyThenComplete : Prop :=
  ∀ (s u t : State) (v : Byte) (l : List Nat), s.Inv → exec (.wSerout v) s = .next u →
    execAll (l.map .render) u = .next t → s.now + s.cfg.tSerComplete ≤ t.now →
    let ready := s.irqen.getLsbD 4
    let complete := s.irqen.getLsbD 3
    let readyTick := s.now + s.cfg.tSerReady
    let completeTick := s.now + s.cfg.tSerComplete
    let calls := irqCallsIn (newEvents u t)
    (∀ n, n ≤ t.now → (calls.filter fun c => c.1 == n).length =
      (if s.irqen.getLsbD 0 && Reference.expiresAt s.t1 n then 1 else 0) +
      (if s.irqen.getLsbD 1 && Reference.expiresAt s.t2 n then 1 else 0) +
      (if s.irqen.getLsbD 2 && Reference.expiresAt s.t4 n then 1 else 0) +
      (if ready && n == readyTick then 1 else 0) + (if complete && n == completeTick then 1 else 0)) ∧
    (∀ c ∈ calls, c.1 ≤ t.now) ∧
    (s.irqst.getLsbD 4 = false →
      (calls.reverse.find? fun c => c.2.getLsbD 4).map Prod.fst = if ready then some readyTick else none) ∧
    (s.irqst.getLsbD 3 = false →
      (calls.reverse.find? fun c => c.2.getLsbD 3).map Prod.fst = if complete then some completeTick else none) ∧
    ((∀ k, (s.timer k).period = none) →
      let atReady := if ready then s.irqst ||| 0x10#8 else s.irqst
      calls = (if complete then [(completeTick, atReady ||| 0x08#8)] else []) ++ (if ready then [(readyTick, atReady)] else []))

/-- The sticky error bits are cleared only by SKREST and reset, no operation sets one, and no operation touches a SKSTAT bit other
than the transmitting bit and, for SKREST, the error bits (`10_state.md` R22, `44_serial.md` R175). -/
def Obligations.ErrorBitsAreClearedOnlyBySkrest : Prop :=
  ∀ (i : Instr) (s t : State), exec i s = .next t → i ≠ .reset →
    t.skstat &&& 0x1D#8 = s.skstat &&& 0x1D#8 ∧ t.skstat &&& 0xE0#8 &&& ~~~s.skstat = 0#8 ∧
    ((∀ v, i ≠ .wSkrest v) → t.skstat &&& 0xE0#8 = s.skstat &&& 0xE0#8)

/-! ### Paddles -/

/-- `W_POTGO` (`45_paddle.md` R191 with the closing `Settle`, `20_memory.md` R43): the eight inputs are asked in order; an
absent answer leaves the input converting without a deadline, an answer above 228 is clamped, an answer 0 completes at
once, another is scheduled; nothing else changes. Where fewer than eight answers are left, the inputs without one get the
answer absent: the model's choice (log entry 6). -/
def Obligations.PotgoStartsEightConversions : Prop :=
  ∀ (s : State) (v : Byte), s.Settled → s.cfg.Valid →
    let a := fun i : Fin 8 => (s.env.potAnswers[i.val]?).join
    let unit := if s.skctl.getLsbD 2 then s.cfg.potUnitFast else s.cfg.potUnitSlow
    ∃ t : State, exec (.wPotgo v) s = .next t ∧
      t = { s with
        potUnit := unit, potStart := s.now, allpot := t.allpot, pots := t.pots
        env := { s.env with potAnswers := s.env.potAnswers.drop 8 } } ∧
      ∀ i, match a i with
        | none => t.allpot.getLsbD i = true ∧
          t.pot i = { target := none, deadline := none, latched := (s.pot i).latched }
        | some 0 => t.allpot.getLsbD i = false ∧ t.pot i = { target := some 0, deadline := none, latched := 0x00#8 }
        | some (x + 1) => t.allpot.getLsbD i = true ∧
          t.pot i = {
            target := some (min (x + 1) 228), deadline := some (s.now + min (x + 1) 228 * unit)
            latched := (s.pot i).latched }

/-- A due paddle completion (`45_paddle.md` R195): the target is latched, the ALLPOT bit and the deadline are cleared; no
interrupt, nothing else changes. -/
def Obligations.DuePotCompletionLatchesTheTarget : Prop :=
  ∀ (s : State), ∀ q ∈ ([(.evPot0, 0), (.evPot1, 1), (.evPot2, 2), (.evPot3, 3), (.evPot4, 4), (.evPot5, 5), (.evPot6, 6),
    (.evPot7, 7)] : List (Instr × Fin 8)), ∀ d t : Nat,
    (s.pot q.2).deadline = some d → d ≤ s.now → (s.pot q.2).target = some t →
    ∃ u : State, exec q.1 s = .next u ∧ u = { s with allpot := u.allpot, pots := u.pots } ∧
      (∀ j, u.allpot.getLsbD j = (s.allpot.getLsbD j && decide (j ≠ q.2.val))) ∧
      u.pot q.2 = { target := some t, deadline := none, latched := BitVec.ofNat 8 t } ∧
      ∀ j, j ≠ q.2 → u.pot j = s.pot j

/-- `R_POTi` (`45_paddle.md` R193): the running estimate, capped, while converting, else the latched value; no state
changes. -/
def Obligations.PotReadsReturnTheEstimateOrTheLatch : Prop :=
  ∀ (s : State), ∀ q ∈ ([(.rPot0, 0), (.rPot1, 1), (.rPot2, 2), (.rPot3, 3), (.rPot4, 4), (.rPot5, 5), (.rPot6, 6),
    (.rPot7, 7)] : List (Instr × Fin 8)),
    let cap := match (s.pot q.2).target with
      | none => 228
      | some t => t
    let b := if s.allpot.getLsbD q.2 then BitVec.ofNat 8 (min ((s.now - s.potStart) / s.potUnit) cap)
      else (s.pot q.2).latched
    exec q.1 s = .next (Reference.told s (.readReturned b))

/-- A connected input counts up to its target and holds it (`45_paddle.md` R197): it is converting exactly before its deadline
tick, a read is at most the target, and equals it from the deadline on. -/
def Obligations.ConnectedPotsReachTheirTarget : Prop :=
  ∀ (s : State) (i : Fin 8) (t : Nat), s.Inv → (s.pot i).target = some t →
    (s.allpot.getLsbD i = true ↔ s.now < s.potStart + t * s.potUnit) ∧ (potRead s i).toNat ≤ t ∧
    (s.potStart + t * s.potUnit ≤ s.now → (potRead s i).toNat = t)

/-- `R_ALLPOT` (`45_paddle.md` R194): the override, when present, replaces the byte; it is asked once, nothing else changes. -/
def Obligations.AllpotReadAsksTheOverride : Prop :=
  ∀ (s : State) (o : Option Byte) rest, s.env.allpotAnswers = o :: rest →
    exec .rAllpot s = .next (Reference.told { s with env := { s.env with allpotAnswers := rest } }
      (.readReturned (match o with
        | some b => b
        | none => s.allpot)))

/-! ### Register interface and platform -/

/-- The writes that only store or clear bits, and those that select no register (`46_register_interface.md` R211, R213, R216,
`44_serial.md` R175). -/
def Obligations.PlainAndUnmappedWrites : Prop :=
  ∀ (s : State) (v off : Byte), s.Settled →
    exec (.wSkctl v) s = .next { s with skctl := v } ∧
    exec (.wSkrest v) s = .next { s with skstat := s.skstat &&& ~~~0xE0#8 } ∧
    exec (.wUnmapped v) s = .next s ∧
    exec (.wOutOfRange off v) s = .next s

/-- The reads of KBCODE and of offsets that select no register (`46_register_interface.md` R212, R214, R216). -/
def Obligations.KbcodeAndUnmappedReads : Prop :=
  ∀ (s : State) (off : Byte),
    exec .rKbcode s = .next (Reference.told s (.readReturned s.kbcode)) ∧
    exec .rUnmappedB s = .next (Reference.told s (.readReturned 0x00#8)) ∧
    exec .rUnmappedC s = .next (Reference.told s (.readReturned 0x00#8)) ∧
    exec (.rOutOfRange off) s = .next (Reference.told s (.readReturned 0x00#8))

/-- `RegWrite` and `RegRead` by natural offset (`20_memory.md` R43, R44): an offset of 0 to 255 is the operation of its
transaction word, and offsets with no register are no-ops and read 0x00. -/
def Obligations.OffsetsWithoutARegisterDoNothing : Prop :=
  ∀ (s : State) (off : Nat) (v : Byte),
    (off < 256 → ∀ i, decode (.bus (writeWord (BitVec.ofNat 8 off) v)) = .ok i → regWrite off v s = exec i s) ∧
    (off < 256 → ∀ i, decode (.bus (readWord (BitVec.ofNat 8 off))) = .ok i → regRead off s = exec i s) ∧
    (s.Settled → (off > 0xF ∨ off = 0xC) → regWrite off v s = .next s) ∧
    ((off > 0xF ∨ off = 0xB ∨ off = 0xC) → regRead off s = .next (Reference.told s (.readReturned 0x00#8)))

/-- Multi-chip decode (`20_memory.md` R45, `60_exceptions.md` R242): whatever the platform's decode, the selected chip performs
the access, a read returns the byte of that chip's read, every other chip stays as it is, and an address that selects no
chip is a no-op and reads 0x00. The default decode splits the address at bit 4. -/
def Obligations.ChipsAreIndependent : Prop :=
  (∀ a, defaultDecode a = (a >>> 4, a &&& 0xF)) ∧
  ∀ (dec : Nat → Nat × Nat) (a : Nat) (v : Byte) (chips : List State),
    (chips.length ≤ (dec a).1 →
      systemWrite dec a v chips = .next chips ∧ systemRead dec a chips = .next (0x00#8, chips)) ∧
    (∀ s, chips[(dec a).1]? = some s →
      (∃ t, regWrite (dec a).2 v s = .next t ∧ systemWrite dec a v chips = .next (chips.set (dec a).1 t)) ∧
      (∃ t b, regRead (dec a).2 s = .next t ∧
        t.env.trace = { tick := s.now, event := .readReturned b } :: s.env.trace ∧
        systemRead dec a chips = .next (b, chips.set (dec a).1 t))) ∧
    (∀ chips', systemWrite dec a v chips = .next chips' →
      chips'.length = chips.length ∧ ∀ j, j ≠ (dec a).1 → chips'[j]? = chips[j]?) ∧
    (∀ b chips', systemRead dec a chips = .next (b, chips') →
      chips'.length = chips.length ∧ ∀ j, j ≠ (dec a).1 → chips'[j]? = chips[j]?)

/-- A port the platform lacks answers its constant (`70_reset_and_hazards.md` R253): with no answers left, `R_ALLPOT` returns
the byte as held, `R_SERIN` the fixed byte, and `W_POTGO` leaves every input unconnected and converting. That an exhausted
list of answers stands for such a port is the model's choice (log entry 6). -/
def Obligations.UnboundPortsAnswerTheirConstants : Prop :=
  ∀ (s : State) (v : Byte),
    (s.env.allpotAnswers = [] → exec .rAllpot s = .next (Reference.told s (.readReturned s.allpot))) ∧
    (s.env.serialAnswers = [] →
      exec .rSerin s = .next (Reference.told { s with serin := s.env.serialFixed } (.readReturned s.env.serialFixed))) ∧
    (s.Settled → s.env.potAnswers = [] → ∃ t : State, exec (.wPotgo v) s = .next t ∧
      t = { s with
        potUnit := if s.skctl.getLsbD 2 then s.cfg.potUnitFast else s.cfg.potUnitSlow
        potStart := s.now, allpot := 0xFF#8, pots := t.pots } ∧
      ∀ i, t.pot i = { target := none, deadline := none, latched := (s.pot i).latched })
end

