-- ==== Sys2Proof/Laws/State.lean ====
section
/-!
SUPPORT. One lemma per field per update of State: what each named update of the state leaves and what it sets.
-/

namespace Sys2Proof.Machine

/-! ### emit -/

@[simp] theorem emit_cfg (e : HostEvent) (s : State) : (emit e s).cfg = s.cfg := rfl
@[simp] theorem emit_now (e : HostEvent) (s : State) : (emit e s).now = s.now := rfl
@[simp] theorem emit_ch1 (e : HostEvent) (s : State) : (emit e s).ch1 = s.ch1 := rfl
@[simp] theorem emit_ch2 (e : HostEvent) (s : State) : (emit e s).ch2 = s.ch2 := rfl
@[simp] theorem emit_ch3 (e : HostEvent) (s : State) : (emit e s).ch3 = s.ch3 := rfl
@[simp] theorem emit_ch4 (e : HostEvent) (s : State) : (emit e s).ch4 = s.ch4 := rfl
@[simp] theorem emit_kbcode (e : HostEvent) (s : State) : (emit e s).kbcode = s.kbcode := rfl
@[simp] theorem emit_audctl (e : HostEvent) (s : State) : (emit e s).audctl = s.audctl := rfl
@[simp] theorem emit_skctl (e : HostEvent) (s : State) : (emit e s).skctl = s.skctl := rfl
@[simp] theorem emit_skstat (e : HostEvent) (s : State) : (emit e s).skstat = s.skstat := rfl
@[simp] theorem emit_irqen (e : HostEvent) (s : State) : (emit e s).irqen = s.irqen := rfl
@[simp] theorem emit_irqst (e : HostEvent) (s : State) : (emit e s).irqst = s.irqst := rfl
@[simp] theorem emit_serout (e : HostEvent) (s : State) : (emit e s).serout = s.serout := rfl
@[simp] theorem emit_serin (e : HostEvent) (s : State) : (emit e s).serin = s.serin := rfl
@[simp] theorem emit_serReady (e : HostEvent) (s : State) : (emit e s).serReady = s.serReady := rfl
@[simp] theorem emit_serComplete (e : HostEvent) (s : State) : (emit e s).serComplete = s.serComplete := rfl
@[simp] theorem emit_t1 (e : HostEvent) (s : State) : (emit e s).t1 = s.t1 := rfl
@[simp] theorem emit_t2 (e : HostEvent) (s : State) : (emit e s).t2 = s.t2 := rfl
@[simp] theorem emit_t4 (e : HostEvent) (s : State) : (emit e s).t4 = s.t4 := rfl
@[simp] theorem emit_p4 (e : HostEvent) (s : State) : (emit e s).p4 = s.p4 := rfl
@[simp] theorem emit_p5 (e : HostEvent) (s : State) : (emit e s).p5 = s.p5 := rfl
@[simp] theorem emit_p9 (e : HostEvent) (s : State) : (emit e s).p9 = s.p9 := rfl
@[simp] theorem emit_p17 (e : HostEvent) (s : State) : (emit e s).p17 = s.p17 := rfl
@[simp] theorem emit_r9 (e : HostEvent) (s : State) : (emit e s).r9 = s.r9 := rfl
@[simp] theorem emit_r17 (e : HostEvent) (s : State) : (emit e s).r17 = s.r17 := rfl
@[simp] theorem emit_randLast (e : HostEvent) (s : State) : (emit e s).randLast = s.randLast := rfl
@[simp] theorem emit_allpot (e : HostEvent) (s : State) : (emit e s).allpot = s.allpot := rfl
@[simp] theorem emit_pots (e : HostEvent) (s : State) : (emit e s).pots = s.pots := rfl
@[simp] theorem emit_potStart (e : HostEvent) (s : State) : (emit e s).potStart = s.potStart := rfl
@[simp] theorem emit_potUnit (e : HostEvent) (s : State) : (emit e s).potUnit = s.potUnit := rfl
@[simp] theorem emit_sampleWhole (e : HostEvent) (s : State) : (emit e s).sampleWhole = s.sampleWhole := rfl
@[simp] theorem emit_sampleFract (e : HostEvent) (s : State) : (emit e s).sampleFract = s.sampleFract := rfl
@[simp] theorem emit_trace (e : HostEvent) (s : State) :
    (emit e s).env.trace = { tick := s.now, event := e } :: s.env.trace := rfl
@[simp] theorem emit_inbox (e : HostEvent) (s : State) : (emit e s).env.inbox = s.env.inbox := rfl
@[simp] theorem emit_potAnswers (e : HostEvent) (s : State) : (emit e s).env.potAnswers = s.env.potAnswers := rfl
@[simp] theorem emit_allpotAnswers (e : HostEvent) (s : State) : (emit e s).env.allpotAnswers = s.env.allpotAnswers := rfl
@[simp] theorem emit_serialAnswers (e : HostEvent) (s : State) : (emit e s).env.serialAnswers = s.env.serialAnswers := rfl
@[simp] theorem emit_serialFixed (e : HostEvent) (s : State) : (emit e s).env.serialFixed = s.env.serialFixed := rfl

/-! ### setInbox -/

@[simp] theorem State.setInbox_cfg (s : State) (l : List HostItem) : (s.setInbox l).cfg = s.cfg := rfl
@[simp] theorem State.setInbox_now (s : State) (l : List HostItem) : (s.setInbox l).now = s.now := rfl
@[simp] theorem State.setInbox_ch1 (s : State) (l : List HostItem) : (s.setInbox l).ch1 = s.ch1 := rfl
@[simp] theorem State.setInbox_ch2 (s : State) (l : List HostItem) : (s.setInbox l).ch2 = s.ch2 := rfl
@[simp] theorem State.setInbox_ch3 (s : State) (l : List HostItem) : (s.setInbox l).ch3 = s.ch3 := rfl
@[simp] theorem State.setInbox_ch4 (s : State) (l : List HostItem) : (s.setInbox l).ch4 = s.ch4 := rfl
@[simp] theorem State.setInbox_kbcode (s : State) (l : List HostItem) : (s.setInbox l).kbcode = s.kbcode := rfl
@[simp] theorem State.setInbox_audctl (s : State) (l : List HostItem) : (s.setInbox l).audctl = s.audctl := rfl
@[simp] theorem State.setInbox_skctl (s : State) (l : List HostItem) : (s.setInbox l).skctl = s.skctl := rfl
@[simp] theorem State.setInbox_skstat (s : State) (l : List HostItem) : (s.setInbox l).skstat = s.skstat := rfl
@[simp] theorem State.setInbox_irqen (s : State) (l : List HostItem) : (s.setInbox l).irqen = s.irqen := rfl
@[simp] theorem State.setInbox_irqst (s : State) (l : List HostItem) : (s.setInbox l).irqst = s.irqst := rfl
@[simp] theorem State.setInbox_serout (s : State) (l : List HostItem) : (s.setInbox l).serout = s.serout := rfl
@[simp] theorem State.setInbox_serin (s : State) (l : List HostItem) : (s.setInbox l).serin = s.serin := rfl
@[simp] theorem State.setInbox_serReady (s : State) (l : List HostItem) : (s.setInbox l).serReady = s.serReady := rfl
@[simp] theorem State.setInbox_serComplete (s : State) (l : List HostItem) : (s.setInbox l).serComplete = s.serComplete := rfl
@[simp] theorem State.setInbox_t1 (s : State) (l : List HostItem) : (s.setInbox l).t1 = s.t1 := rfl
@[simp] theorem State.setInbox_t2 (s : State) (l : List HostItem) : (s.setInbox l).t2 = s.t2 := rfl
@[simp] theorem State.setInbox_t4 (s : State) (l : List HostItem) : (s.setInbox l).t4 = s.t4 := rfl
@[simp] theorem State.setInbox_p4 (s : State) (l : List HostItem) : (s.setInbox l).p4 = s.p4 := rfl
@[simp] theorem State.setInbox_p5 (s : State) (l : List HostItem) : (s.setInbox l).p5 = s.p5 := rfl
@[simp] theorem State.setInbox_p9 (s : State) (l : List HostItem) : (s.setInbox l).p9 = s.p9 := rfl
@[simp] theorem State.setInbox_p17 (s : State) (l : List HostItem) : (s.setInbox l).p17 = s.p17 := rfl
@[simp] theorem State.setInbox_r9 (s : State) (l : List HostItem) : (s.setInbox l).r9 = s.r9 := rfl
@[simp] theorem State.setInbox_r17 (s : State) (l : List HostItem) : (s.setInbox l).r17 = s.r17 := rfl
@[simp] theorem State.setInbox_randLast (s : State) (l : List HostItem) : (s.setInbox l).randLast = s.randLast := rfl
@[simp] theorem State.setInbox_allpot (s : State) (l : List HostItem) : (s.setInbox l).allpot = s.allpot := rfl
@[simp] theorem State.setInbox_pots (s : State) (l : List HostItem) : (s.setInbox l).pots = s.pots := rfl
@[simp] theorem State.setInbox_potStart (s : State) (l : List HostItem) : (s.setInbox l).potStart = s.potStart := rfl
@[simp] theorem State.setInbox_potUnit (s : State) (l : List HostItem) : (s.setInbox l).potUnit = s.potUnit := rfl
@[simp] theorem State.setInbox_sampleWhole (s : State) (l : List HostItem) : (s.setInbox l).sampleWhole = s.sampleWhole := rfl
@[simp] theorem State.setInbox_sampleFract (s : State) (l : List HostItem) : (s.setInbox l).sampleFract = s.sampleFract := rfl
@[simp] theorem State.setInbox_inbox (s : State) (l : List HostItem) : (s.setInbox l).env.inbox = l := rfl
@[simp] theorem State.setInbox_potAnswers (s : State) (l : List HostItem) : (s.setInbox l).env.potAnswers = s.env.potAnswers := rfl
@[simp] theorem State.setInbox_allpotAnswers (s : State) (l : List HostItem) : (s.setInbox l).env.allpotAnswers = s.env.allpotAnswers := rfl
@[simp] theorem State.setInbox_serialAnswers (s : State) (l : List HostItem) : (s.setInbox l).env.serialAnswers = s.env.serialAnswers := rfl
@[simp] theorem State.setInbox_serialFixed (s : State) (l : List HostItem) : (s.setInbox l).env.serialFixed = s.env.serialFixed := rfl
@[simp] theorem State.setInbox_trace (s : State) (l : List HostItem) : (s.setInbox l).env.trace = s.env.trace := rfl

/-! ### setCh -/

@[simp] theorem State.setCh_cfg (s : State) (c : Ch) (k : Channel) : (s.setCh c k).cfg = s.cfg := by cases c <;> rfl
@[simp] theorem State.setCh_now (s : State) (c : Ch) (k : Channel) : (s.setCh c k).now = s.now := by cases c <;> rfl
@[simp] theorem State.setCh_kbcode (s : State) (c : Ch) (k : Channel) : (s.setCh c k).kbcode = s.kbcode := by cases c <;> rfl
@[simp] theorem State.setCh_audctl (s : State) (c : Ch) (k : Channel) : (s.setCh c k).audctl = s.audctl := by cases c <;> rfl
@[simp] theorem State.setCh_skctl (s : State) (c : Ch) (k : Channel) : (s.setCh c k).skctl = s.skctl := by cases c <;> rfl
@[simp] theorem State.setCh_skstat (s : State) (c : Ch) (k : Channel) : (s.setCh c k).skstat = s.skstat := by cases c <;> rfl
@[simp] theorem State.setCh_irqen (s : State) (c : Ch) (k : Channel) : (s.setCh c k).irqen = s.irqen := by cases c <;> rfl
@[simp] theorem State.setCh_irqst (s : State) (c : Ch) (k : Channel) : (s.setCh c k).irqst = s.irqst := by cases c <;> rfl
@[simp] theorem State.setCh_serout (s : State) (c : Ch) (k : Channel) : (s.setCh c k).serout = s.serout := by cases c <;> rfl
@[simp] theorem State.setCh_serin (s : State) (c : Ch) (k : Channel) : (s.setCh c k).serin = s.serin := by cases c <;> rfl
@[simp] theorem State.setCh_serReady (s : State) (c : Ch) (k : Channel) : (s.setCh c k).serReady = s.serReady := by cases c <;> rfl
@[simp] theorem State.setCh_serComplete (s : State) (c : Ch) (k : Channel) : (s.setCh c k).serComplete = s.serComplete := by cases c <;> rfl
@[simp] theorem State.setCh_t1 (s : State) (c : Ch) (k : Channel) : (s.setCh c k).t1 = s.t1 := by cases c <;> rfl
@[simp] theorem State.setCh_t2 (s : State) (c : Ch) (k : Channel) : (s.setCh c k).t2 = s.t2 := by cases c <;> rfl
@[simp] theorem State.setCh_t4 (s : State) (c : Ch) (k : Channel) : (s.setCh c k).t4 = s.t4 := by cases c <;> rfl
@[simp] theorem State.setCh_p4 (s : State) (c : Ch) (k : Channel) : (s.setCh c k).p4 = s.p4 := by cases c <;> rfl
@[simp] theorem State.setCh_p5 (s : State) (c : Ch) (k : Channel) : (s.setCh c k).p5 = s.p5 := by cases c <;> rfl
@[simp] theorem State.setCh_p9 (s : State) (c : Ch) (k : Channel) : (s.setCh c k).p9 = s.p9 := by cases c <;> rfl
@[simp] theorem State.setCh_p17 (s : State) (c : Ch) (k : Channel) : (s.setCh c k).p17 = s.p17 := by cases c <;> rfl
@[simp] theorem State.setCh_r9 (s : State) (c : Ch) (k : Channel) : (s.setCh c k).r9 = s.r9 := by cases c <;> rfl
@[simp] theorem State.setCh_r17 (s : State) (c : Ch) (k : Channel) : (s.setCh c k).r17 = s.r17 := by cases c <;> rfl
@[simp] theorem State.setCh_randLast (s : State) (c : Ch) (k : Channel) : (s.setCh c k).randLast = s.randLast := by cases c <;> rfl
@[simp] theorem State.setCh_allpot (s : State) (c : Ch) (k : Channel) : (s.setCh c k).allpot = s.allpot := by cases c <;> rfl
@[simp] theorem State.setCh_pots (s : State) (c : Ch) (k : Channel) : (s.setCh c k).pots = s.pots := by cases c <;> rfl
@[simp] theorem State.setCh_potStart (s : State) (c : Ch) (k : Channel) : (s.setCh c k).potStart = s.potStart := by cases c <;> rfl
@[simp] theorem State.setCh_potUnit (s : State) (c : Ch) (k : Channel) : (s.setCh c k).potUnit = s.potUnit := by cases c <;> rfl
@[simp] theorem State.setCh_sampleWhole (s : State) (c : Ch) (k : Channel) : (s.setCh c k).sampleWhole = s.sampleWhole := by cases c <;> rfl
@[simp] theorem State.setCh_sampleFract (s : State) (c : Ch) (k : Channel) : (s.setCh c k).sampleFract = s.sampleFract := by cases c <;> rfl
@[simp] theorem State.setCh_env (s : State) (c : Ch) (k : Channel) : (s.setCh c k).env = s.env := by cases c <;> rfl
@[simp] theorem State.setCh_ch (s : State) (c : Ch) (k : Channel) : (s.setCh c k).ch c = k := by cases c <;> rfl
theorem State.setCh_ch_ne (s : State) {c d : Ch} (k : Channel) (h : d ≠ c) : (s.setCh c k).ch d = s.ch d := by
  cases c <;> cases d <;> first | rfl | exact absurd rfl h
@[simp] theorem State.setCh_setCh (s : State) (c : Ch) (k l : Channel) : (s.setCh c k).setCh c l = s.setCh c l := by
  cases c <;> rfl
@[simp] theorem State.setCh_self (s : State) (c : Ch) : s.setCh c (s.ch c) = s := by cases c <;> rfl
@[simp] theorem State.ch_ch1 (s : State) : s.ch .ch1 = s.ch1 := rfl
@[simp] theorem State.ch_ch2 (s : State) : s.ch .ch2 = s.ch2 := rfl
@[simp] theorem State.ch_ch3 (s : State) : s.ch .ch3 = s.ch3 := rfl
@[simp] theorem State.ch_ch4 (s : State) : s.ch .ch4 = s.ch4 := rfl

/-! ### setTimer -/

@[simp] theorem State.setTimer_cfg (s : State) (k : TimerId) (t : Timer) : (s.setTimer k t).cfg = s.cfg := by cases k <;> rfl
@[simp] theorem State.setTimer_now (s : State) (k : TimerId) (t : Timer) : (s.setTimer k t).now = s.now := by cases k <;> rfl
@[simp] theorem State.setTimer_ch1 (s : State) (k : TimerId) (t : Timer) : (s.setTimer k t).ch1 = s.ch1 := by cases k <;> rfl
@[simp] theorem State.setTimer_ch2 (s : State) (k : TimerId) (t : Timer) : (s.setTimer k t).ch2 = s.ch2 := by cases k <;> rfl
@[simp] theorem State.setTimer_ch3 (s : State) (k : TimerId) (t : Timer) : (s.setTimer k t).ch3 = s.ch3 := by cases k <;> rfl
@[simp] theorem State.setTimer_ch4 (s : State) (k : TimerId) (t : Timer) : (s.setTimer k t).ch4 = s.ch4 := by cases k <;> rfl
@[simp] theorem State.setTimer_kbcode (s : State) (k : TimerId) (t : Timer) : (s.setTimer k t).kbcode = s.kbcode := by cases k <;> rfl
@[simp] theorem State.setTimer_audctl (s : State) (k : TimerId) (t : Timer) : (s.setTimer k t).audctl = s.audctl := by cases k <;> rfl
@[simp] theorem State.setTimer_skctl (s : State) (k : TimerId) (t : Timer) : (s.setTimer k t).skctl = s.skctl := by cases k <;> rfl
@[simp] theorem State.setTimer_skstat (s : State) (k : TimerId) (t : Timer) : (s.setTimer k t).skstat = s.skstat := by cases k <;> rfl
@[simp] theorem State.setTimer_irqen (s : State) (k : TimerId) (t : Timer) : (s.setTimer k t).irqen = s.irqen := by cases k <;> rfl
@[simp] theorem State.setTimer_irqst (s : State) (k : TimerId) (t : Timer) : (s.setTimer k t).irqst = s.irqst := by cases k <;> rfl
@[simp] theorem State.setTimer_serout (s : State) (k : TimerId) (t : Timer) : (s.setTimer k t).serout = s.serout := by cases k <;> rfl
@[simp] theorem State.setTimer_serin (s : State) (k : TimerId) (t : Timer) : (s.setTimer k t).serin = s.serin := by cases k <;> rfl
@[simp] theorem State.setTimer_serReady (s : State) (k : TimerId) (t : Timer) : (s.setTimer k t).serReady = s.serReady := by cases k <;> rfl
@[simp] theorem State.setTimer_serComplete (s : State) (k : TimerId) (t : Timer) : (s.setTimer k t).serComplete = s.serComplete := by cases k <;> rfl
@[simp] theorem State.setTimer_p4 (s : State) (k : TimerId) (t : Timer) : (s.setTimer k t).p4 = s.p4 := by cases k <;> rfl
@[simp] theorem State.setTimer_p5 (s : State) (k : TimerId) (t : Timer) : (s.setTimer k t).p5 = s.p5 := by cases k <;> rfl
@[simp] theorem State.setTimer_p9 (s : State) (k : TimerId) (t : Timer) : (s.setTimer k t).p9 = s.p9 := by cases k <;> rfl
@[simp] theorem State.setTimer_p17 (s : State) (k : TimerId) (t : Timer) : (s.setTimer k t).p17 = s.p17 := by cases k <;> rfl
@[simp] theorem State.setTimer_r9 (s : State) (k : TimerId) (t : Timer) : (s.setTimer k t).r9 = s.r9 := by cases k <;> rfl
@[simp] theorem State.setTimer_r17 (s : State) (k : TimerId) (t : Timer) : (s.setTimer k t).r17 = s.r17 := by cases k <;> rfl
@[simp] theorem State.setTimer_randLast (s : State) (k : TimerId) (t : Timer) : (s.setTimer k t).randLast = s.randLast := by cases k <;> rfl
@[simp] theorem State.setTimer_allpot (s : State) (k : TimerId) (t : Timer) : (s.setTimer k t).allpot = s.allpot := by cases k <;> rfl
@[simp] theorem State.setTimer_pots (s : State) (k : TimerId) (t : Timer) : (s.setTimer k t).pots = s.pots := by cases k <;> rfl
@[simp] theorem State.setTimer_potStart (s : State) (k : TimerId) (t : Timer) : (s.setTimer k t).potStart = s.potStart := by cases k <;> rfl
@[simp] theorem State.setTimer_potUnit (s : State) (k : TimerId) (t : Timer) : (s.setTimer k t).potUnit = s.potUnit := by cases k <;> rfl
@[simp] theorem State.setTimer_sampleWhole (s : State) (k : TimerId) (t : Timer) : (s.setTimer k t).sampleWhole = s.sampleWhole := by cases k <;> rfl
@[simp] theorem State.setTimer_sampleFract (s : State) (k : TimerId) (t : Timer) : (s.setTimer k t).sampleFract = s.sampleFract := by cases k <;> rfl
@[simp] theorem State.setTimer_env (s : State) (k : TimerId) (t : Timer) : (s.setTimer k t).env = s.env := by cases k <;> rfl
@[simp] theorem State.setTimer_timer (s : State) (k : TimerId) (t : Timer) : (s.setTimer k t).timer k = t := by
  cases k <;> rfl
theorem State.setTimer_timer_ne (s : State) {k j : TimerId} (t : Timer) (h : j ≠ k) :
    (s.setTimer k t).timer j = s.timer j := by
  cases k <;> cases j <;> first | rfl | exact absurd rfl h
@[simp] theorem State.setTimer_self (s : State) (k : TimerId) : s.setTimer k (s.timer k) = s := by cases k <;> rfl
@[simp] theorem State.timer_t1 (s : State) : s.timer .t1 = s.t1 := rfl
@[simp] theorem State.timer_t2 (s : State) : s.timer .t2 = s.t2 := rfl
@[simp] theorem State.timer_t4 (s : State) : s.timer .t4 = s.t4 := rfl

/-! ### setPot -/

@[simp] theorem State.setPot_cfg (s : State) (i : Fin 8) (p : PotSlot) : (s.setPot i p).cfg = s.cfg := rfl
@[simp] theorem State.setPot_now (s : State) (i : Fin 8) (p : PotSlot) : (s.setPot i p).now = s.now := rfl
@[simp] theorem State.setPot_ch1 (s : State) (i : Fin 8) (p : PotSlot) : (s.setPot i p).ch1 = s.ch1 := rfl
@[simp] theorem State.setPot_ch2 (s : State) (i : Fin 8) (p : PotSlot) : (s.setPot i p).ch2 = s.ch2 := rfl
@[simp] theorem State.setPot_ch3 (s : State) (i : Fin 8) (p : PotSlot) : (s.setPot i p).ch3 = s.ch3 := rfl
@[simp] theorem State.setPot_ch4 (s : State) (i : Fin 8) (p : PotSlot) : (s.setPot i p).ch4 = s.ch4 := rfl
@[simp] theorem State.setPot_kbcode (s : State) (i : Fin 8) (p : PotSlot) : (s.setPot i p).kbcode = s.kbcode := rfl
@[simp] theorem State.setPot_audctl (s : State) (i : Fin 8) (p : PotSlot) : (s.setPot i p).audctl = s.audctl := rfl
@[simp] theorem State.setPot_skctl (s : State) (i : Fin 8) (p : PotSlot) : (s.setPot i p).skctl = s.skctl := rfl
@[simp] theorem State.setPot_skstat (s : State) (i : Fin 8) (p : PotSlot) : (s.setPot i p).skstat = s.skstat := rfl
@[simp] theorem State.setPot_irqen (s : State) (i : Fin 8) (p : PotSlot) : (s.setPot i p).irqen = s.irqen := rfl
@[simp] theorem State.setPot_irqst (s : State) (i : Fin 8) (p : PotSlot) : (s.setPot i p).irqst = s.irqst := rfl
@[simp] theorem State.setPot_serout (s : State) (i : Fin 8) (p : PotSlot) : (s.setPot i p).serout = s.serout := rfl
@[simp] theorem State.setPot_serin (s : State) (i : Fin 8) (p : PotSlot) : (s.setPot i p).serin = s.serin := rfl
@[simp] theorem State.setPot_serReady (s : State) (i : Fin 8) (p : PotSlot) : (s.setPot i p).serReady = s.serReady := rfl
@[simp] theorem State.setPot_serComplete (s : State) (i : Fin 8) (p : PotSlot) : (s.setPot i p).serComplete = s.serComplete := rfl
@[simp] theorem State.setPot_t1 (s : State) (i : Fin 8) (p : PotSlot) : (s.setPot i p).t1 = s.t1 := rfl
@[simp] theorem State.setPot_t2 (s : State) (i : Fin 8) (p : PotSlot) : (s.setPot i p).t2 = s.t2 := rfl
@[simp] theorem State.setPot_t4 (s : State) (i : Fin 8) (p : PotSlot) : (s.setPot i p).t4 = s.t4 := rfl
@[simp] theorem State.setPot_p4 (s : State) (i : Fin 8) (p : PotSlot) : (s.setPot i p).p4 = s.p4 := rfl
@[simp] theorem State.setPot_p5 (s : State) (i : Fin 8) (p : PotSlot) : (s.setPot i p).p5 = s.p5 := rfl
@[simp] theorem State.setPot_p9 (s : State) (i : Fin 8) (p : PotSlot) : (s.setPot i p).p9 = s.p9 := rfl
@[simp] theorem State.setPot_p17 (s : State) (i : Fin 8) (p : PotSlot) : (s.setPot i p).p17 = s.p17 := rfl
@[simp] theorem State.setPot_r9 (s : State) (i : Fin 8) (p : PotSlot) : (s.setPot i p).r9 = s.r9 := rfl
@[simp] theorem State.setPot_r17 (s : State) (i : Fin 8) (p : PotSlot) : (s.setPot i p).r17 = s.r17 := rfl
@[simp] theorem State.setPot_randLast (s : State) (i : Fin 8) (p : PotSlot) : (s.setPot i p).randLast = s.randLast := rfl
@[simp] theorem State.setPot_allpot (s : State) (i : Fin 8) (p : PotSlot) : (s.setPot i p).allpot = s.allpot := rfl
@[simp] theorem State.setPot_potStart (s : State) (i : Fin 8) (p : PotSlot) : (s.setPot i p).potStart = s.potStart := rfl
@[simp] theorem State.setPot_potUnit (s : State) (i : Fin 8) (p : PotSlot) : (s.setPot i p).potUnit = s.potUnit := rfl
@[simp] theorem State.setPot_sampleWhole (s : State) (i : Fin 8) (p : PotSlot) : (s.setPot i p).sampleWhole = s.sampleWhole := rfl
@[simp] theorem State.setPot_sampleFract (s : State) (i : Fin 8) (p : PotSlot) : (s.setPot i p).sampleFract = s.sampleFract := rfl
@[simp] theorem State.setPot_env (s : State) (i : Fin 8) (p : PotSlot) : (s.setPot i p).env = s.env := rfl
@[simp] theorem State.setPot_pot (s : State) (i : Fin 8) (p : PotSlot) : (s.setPot i p).pot i = p := by
  simp [State.pot, State.setPot]
theorem State.setPot_pot_ne (s : State) {i j : Fin 8} (p : PotSlot) (h : j ≠ i) : (s.setPot i p).pot j = s.pot j := by
  have : (i : Nat) ≠ j := fun e => h (Fin.ext e.symm)
  simp [State.pot, State.setPot, this]
/-- The slots decide the vector: two states whose eight slots agree have the same paddle slots. -/
theorem State.pots_eq_of_pot (s t : State) (h : ∀ i, s.pot i = t.pot i) : s.pots = t.pots := by
  apply Vector.ext
  intro i hi
  exact h ⟨i, hi⟩

end Sys2Proof.Machine
end

