-- ==== Sys2Proof/Laws/Ops.lean ====
section
/-!
SUPPORT. For each shared operation one lemma that says once what it can do; later proofs cite these and do not unfold the
operation.
-/

namespace Sys2Proof.Machine

/-! ### Ticks -/

@[simp] theorem ticks_isZero_at (n : Nat) : (Ticks.at n).isZero = decide (n = 0) := by
  cases n <;> rfl
@[simp] theorem ticks_isZero_never : Ticks.never.isZero = false := rfl
@[simp] theorem ticks_minus_at (n e : Nat) : (Ticks.at n).minus e = .at (n - e) := rfl
@[simp] theorem ticks_minus_never (e : Nat) : Ticks.never.minus e = .never := rfl

/-! ### Interrupts and events -/

/-- All that `raiseIrq` does: nothing when no raised source is enabled, else the bits become pending and the sink is called once
with every pending enabled bit. -/
theorem raiseIrq_eq (bits : Byte) (s : State) :
    raiseIrq bits s = if bits &&& s.irqen = 0#8 then s else
      emit (.irqSink ((s.irqst ||| bits &&& s.irqen) &&& s.irqen)) { s with irqst := s.irqst ||| bits &&& s.irqen } := rfl

/-- What `raiseIrq` can change: IRQST and the trace. -/
theorem raiseIrq_frame (bits : Byte) (s : State) :
    ∃ q l, raiseIrq bits s = { s with irqst := q, env := { s.env with trace := l ++ s.env.trace } } := by
  rw [raiseIrq_eq]
  split
  · exact ⟨s.irqst, [], rfl⟩
  · exact ⟨_, [_], rfl⟩

/-- What a timer expiry can change: its own deadline, IRQST and the trace. -/
theorem timerExpiry_frame (k : TimerId) (s : State) :
    ∃ d q l, timerExpiry k s = { s.setTimer k { s.timer k with deadline := d } with
      irqst := q, env := { s.env with trace := l ++ s.env.trace } } := by
  have stay : ∃ d q l, s = { s.setTimer k { s.timer k with deadline := d } with
      irqst := q, env := { s.env with trace := l ++ s.env.trace } } :=
    ⟨(s.timer k).deadline, s.irqst, [], by cases k <;> rfl⟩
  unfold timerExpiry
  split
  · split
    · obtain ⟨q, l, h⟩ := raiseIrq_frame (timerIrqBit k) (s.setTimer k { s.timer k with deadline := some _ })
      exact ⟨_, q, l, by rw [h]; cases k <;> rfl⟩
    · exact stay
  · exact stay

/-- A timer that is not due does not expire. -/
theorem timerExpiry_of_not_due (k : TimerId) (s : State) (h : ∀ d, (s.timer k).deadline = some d → s.now < d) :
    timerExpiry k s = s := by
  unfold timerExpiry
  split
  · next hd _ => rw [if_neg (Nat.not_le.2 (h _ hd))]
  · rfl

/-- A deadline that lies ahead is not due. -/
theorem due_of_ahead (now : Nat) (d : Option Nat) (h : ∀ n, d = some n → now < n) : due now d = false := by
  cases d with
  | none => rfl
  | some n => simpa [due] using h n rfl

/-- The serial "ready" event does nothing when it is not due. -/
theorem serialReady_of_not_due (s : State) (h : ∀ d, s.serReady = some d → s.now < d) : serialReady s = s := by
  simp [serialReady, due_of_ahead _ _ h]

/-- The serial "complete" event does nothing when it is not due. -/
theorem serialComplete_of_not_due (s : State) (h : ∀ d, s.serComplete = some d → s.now < d) : serialComplete s = s := by
  simp [serialComplete, due_of_ahead _ _ h]

/-- A paddle completion does nothing when it is not due. -/
theorem potComplete_of_not_due (i : Fin 8) (s : State) (h : ∀ d, (s.pot i).deadline = some d → s.now < d) :
    potComplete i s = s := by
  unfold potComplete
  split
  · next hd _ => rw [if_neg (Nat.not_le.2 (h _ hd))]
  · rfl

/-- What a paddle completion can change: ALLPOT and the slots. -/
theorem potComplete_frame (i : Fin 8) (s : State) : ∃ a p, potComplete i s = { s with allpot := a, pots := p } := by
  unfold potComplete
  split
  · split
    · exact ⟨_, _, rfl⟩
    · exact ⟨s.allpot, s.pots, rfl⟩
  · exact ⟨s.allpot, s.pots, rfl⟩

/-- What the serial "ready" event can change: its deadline, IRQST and the trace. -/
theorem serialReady_frame (s : State) :
    ∃ d q l, serialReady s = { s with
      serReady := d, irqst := q, env := { s.env with trace := l ++ s.env.trace } } := by
  unfold serialReady
  split
  · obtain ⟨q, l, h⟩ := raiseIrq_frame irqSerReady { s with serReady := none }
    exact ⟨none, q, l, h⟩
  · exact ⟨s.serReady, s.irqst, [], rfl⟩

/-- What the serial "complete" event can change: its deadline, SKSTAT, IRQST and the trace. -/
theorem serialComplete_frame (s : State) :
    ∃ d k q l, serialComplete s = { s with
      serComplete := d, skstat := k, irqst := q, env := { s.env with trace := l ++ s.env.trace } } := by
  unfold serialComplete
  split
  · obtain ⟨q, l, h⟩ := raiseIrq_frame irqSerComplete
      { s with serComplete := none, skstat := s.skstat &&& ~~~skstatBusy }
    exact ⟨none, _, q, l, h⟩
  · exact ⟨s.serComplete, s.skstat, s.irqst, [], rfl⟩

/-- A due timer expiry: the deadline moves one period on and the source is raised (`43_timer_irq.md` R155). -/
theorem timerExpiry_of_due (k : TimerId) (s : State) (d p : Nat) (h : s.timer k = { period := some p, deadline := some d })
    (hd : d ≤ s.now) : timerExpiry k s =
      raiseIrq (timerIrqBit k) (s.setTimer k { period := some p, deadline := some (d + p) }) := by
  simp [timerExpiry, h, hd]

/-- The serial "ready" event when it is due (`44_serial.md` R172). -/
theorem serialReady_of_due (s : State) (d : Nat) (h : s.serReady = some d) (hd : d ≤ s.now) :
    serialReady s = raiseIrq irqSerReady { s with serReady := none } := by
  simp [serialReady, due, h, hd]

/-- The serial "complete" event when it is due (`44_serial.md` R173). -/
theorem serialComplete_of_due (s : State) (d : Nat) (h : s.serComplete = some d) (hd : d ≤ s.now) :
    serialComplete s = raiseIrq irqSerComplete
      { s with serComplete := none, skstat := s.skstat &&& ~~~skstatBusy } := by
  simp [serialComplete, due, h, hd]

/-- A due paddle completion (`45_paddle.md` R195). -/
theorem potComplete_of_due (i : Fin 8) (s : State) (d t : Nat) (h : (s.pot i).deadline = some d)
    (ht : (s.pot i).target = some t) (hd : d ≤ s.now) :
    potComplete i s = { s.setPot i { target := some t, deadline := none, latched := BitVec.ofNat 8 t } with
      allpot := s.allpot &&& ~~~(potBit i) } := by
  simp [potComplete, h, ht, hd]

/-! ### Settle -/

/-- What the paddle part of `Settle` can change: ALLPOT and the slots. -/
theorem settlePots_frame (l : List (Fin 8)) (s : State) :
    ∃ a p, l.foldl (fun s i => potComplete i s) s = { s with allpot := a, pots := p } := by
  induction l generalizing s with
  | nil => exact ⟨s.allpot, s.pots, rfl⟩
  | cons i l ih =>
    obtain ⟨a, p, h⟩ := potComplete_frame i s
    obtain ⟨b, q, h'⟩ := ih { s with allpot := a, pots := p }
    exact ⟨b, q, by rw [List.foldl_cons, h, h']⟩

/-- All that `Settle` can change: the timers' deadlines, the serial deadlines, SKSTAT, IRQST, ALLPOT, the paddle slots and
the trace. -/
theorem settle_frame (s : State) :
    ∃ d1 d2 d4 r c k q a p l, settle s = { s with
      t1 := { s.t1 with deadline := d1 }, t2 := { s.t2 with deadline := d2 }, t4 := { s.t4 with deadline := d4 }
      serReady := r, serComplete := c, skstat := k, irqst := q, allpot := a, pots := p
      env := { s.env with trace := l ++ s.env.trace } } := by
  obtain ⟨d1, q1, l1, h1⟩ := timerExpiry_frame .t1 s
  obtain ⟨d2, q2, l2, h2⟩ := timerExpiry_frame .t2 (timerExpiry .t1 s)
  obtain ⟨d4, q4, l4, h4⟩ := timerExpiry_frame .t4 (timerExpiry .t2 (timerExpiry .t1 s))
  obtain ⟨r, q5, l5, h5⟩ := serialReady_frame (timerExpiry .t4 (timerExpiry .t2 (timerExpiry .t1 s)))
  obtain ⟨c, k, q6, l6, h6⟩ := serialComplete_frame
    (serialReady (timerExpiry .t4 (timerExpiry .t2 (timerExpiry .t1 s))))
  obtain ⟨a, p, h7⟩ := settlePots_frame potInputs
    (serialComplete (serialReady (timerExpiry .t4 (timerExpiry .t2 (timerExpiry .t1 s)))))
  refine ⟨d1, d2, d4, r, c, k, q6, a, p, l6 ++ (l5 ++ (l4 ++ (l2 ++ l1))), ?_⟩
  unfold settle
  simp only
  rw [h7, h6, h5, h4, h2, h1]
  simp [State.setTimer, List.append_assoc]

/-- Each set deadline of a settled state lies ahead. -/
theorem State.Settled.ahead {s : State} (h : s.Settled) :
    (∀ k d, (s.timer k).deadline = some d → s.now < d) ∧ (∀ d, s.serReady = some d → s.now < d) ∧
      (∀ d, s.serComplete = some d → s.now < d) ∧ ∀ i d, (s.pot i).deadline = some d → s.now < d := by
  refine ⟨fun k d e => h d ?_, fun d e => h d ?_, fun d e => h d ?_, fun i d e => h d ?_⟩
  · cases k <;> simp_all [deadlines]
  · simp [deadlines, e]
  · simp [deadlines, e]
  · refine List.mem_append.2 (Or.inr (List.mem_filterMap.2 ⟨i, ?_, e⟩))
    fin_cases i <;> simp [potInputs]

/-- `Settle` changes nothing in a settled state (`42_scheduler.md` R143). -/
theorem settle_of_settled {s : State} (h : s.Settled) : settle s = s := by
  obtain ⟨ht, hr, hc, hp⟩ := h.ahead
  have pots : ∀ l : List (Fin 8), l.foldl (fun s i => potComplete i s) s = s := by
    intro l
    induction l with
    | nil => rfl
    | cons i l ih => rw [List.foldl_cons, potComplete_of_not_due i s (hp i), ih]
  unfold settle
  simp only
  rw [timerExpiry_of_not_due .t1 s (ht .t1), timerExpiry_of_not_due .t2 s (ht .t2), timerExpiry_of_not_due .t4 s (ht .t4),
    serialReady_of_not_due s hr, serialComplete_of_not_due s hc, pots]

/-! ### Channels -/

/-- All that `Configure(c)` can change: the derived fields, the counter and the output of channel c. -/
theorem configure_frame (c : Ch) (s : State) :
    ∃ n o v a, configure c s = s.setCh c { s.ch c with
      divisor := .at (divisorOf s c), counter := n, output := o, volume := v, audible := a } := by
  unfold configure
  simp only
  split
  · exact ⟨_, _, _, _, rfl⟩
  · exact ⟨_, (s.ch c).output, _, _, rfl⟩

/-- What the filter link can change: the output of CH1 or of CH2. -/
theorem filterLink_frame (c : Ch) (s : State) :
    ∃ o1 o2, filterLink c s = { s with ch1 := { s.ch1 with output := o1 }, ch2 := { s.ch2 with output := o2 } } := by
  unfold filterLink
  cases c
  all_goals
    simp only
    split
    · first
      | exact ⟨false, s.ch2.output, rfl⟩
      | exact ⟨s.ch1.output, false, rfl⟩
    · exact ⟨s.ch1.output, s.ch2.output, rfl⟩

/-- All that a channel event can change: the channel's counter, and outputs. -/
theorem channelEvent_frame (c : Ch) (s : State) :
    ∃ n1 n2 n3 n4 o1 o2 o3 o4, channelEvent c s = { s with
      ch1 := { s.ch1 with counter := n1, output := o1 }, ch2 := { s.ch2 with counter := n2, output := o2 }
      ch3 := { s.ch3 with counter := n3, output := o3 }, ch4 := { s.ch4 with counter := n4, output := o4 } } := by
  have reload : ∃ n1 n2 n3 n4 o1 o2 o3 o4, reloadToggle c s = { s with
      ch1 := { s.ch1 with counter := n1, output := o1 }, ch2 := { s.ch2 with counter := n2, output := o2 }
      ch3 := { s.ch3 with counter := n3, output := o3 }, ch4 := { s.ch4 with counter := n4, output := o4 } } := by
    unfold reloadToggle
    simp only
    split
    all_goals
      cases c
      · exact ⟨_, s.ch2.counter, s.ch3.counter, s.ch4.counter, _, s.ch2.output, s.ch3.output, s.ch4.output, rfl⟩
      · exact ⟨s.ch1.counter, _, s.ch3.counter, s.ch4.counter, s.ch1.output, _, s.ch3.output, s.ch4.output, rfl⟩
      · exact ⟨s.ch1.counter, s.ch2.counter, _, s.ch4.counter, s.ch1.output, s.ch2.output, _, s.ch4.output, rfl⟩
      · exact ⟨s.ch1.counter, s.ch2.counter, s.ch3.counter, _, s.ch1.output, s.ch2.output, s.ch3.output, _, rfl⟩
  obtain ⟨n1, n2, n3, n4, o1, o2, o3, o4, h⟩ := reload
  obtain ⟨p1, p2, h'⟩ := filterLink_frame c (reloadToggle c s)
  exact ⟨n1, n2, n3, n4, p1, p2, o3, o4, by rw [channelEvent, h', h]⟩

/-- All that the channel events of one tick can change: the counters and the outputs. -/
theorem channelEvents_frame (z s : State) :
    ∃ n1 n2 n3 n4 o1 o2 o3 o4, channelEvents z s = { s with
      ch1 := { s.ch1 with counter := n1, output := o1 }, ch2 := { s.ch2 with counter := n2, output := o2 }
      ch3 := { s.ch3 with counter := n3, output := o3 }, ch4 := { s.ch4 with counter := n4, output := o4 } } := by
  unfold channelEvents
  generalize channelOrder = l
  induction l generalizing s with
  | nil =>
    exact ⟨s.ch1.counter, s.ch2.counter, s.ch3.counter, s.ch4.counter, s.ch1.output, s.ch2.output, s.ch3.output,
      s.ch4.output, rfl⟩
  | cons c l ih =>
    rw [List.foldl_cons]
    split
    · obtain ⟨m1, m2, m3, m4, q1, q2, q3, q4, h⟩ := channelEvent_frame c s
      obtain ⟨n1, n2, n3, n4, o1, o2, o3, o4, h'⟩ := ih (channelEvent c s)
      exact ⟨n1, n2, n3, n4, o1, o2, o3, o4, by rw [h', h]⟩
    · exact ih s

/-! ### The scheduler step -/

/-- What the host writes, and all else that no scheduler step touches. -/
structure SameSettings (s t : State) : Prop where
  cfg : t.cfg = s.cfg
  channels : ∀ c, (t.ch c).audf = (s.ch c).audf ∧ (t.ch c).audc = (s.ch c).audc ∧ (t.ch c).divisor = (s.ch c).divisor ∧
    (t.ch c).volume = (s.ch c).volume ∧ (t.ch c).audible = (s.ch c).audible
  audctl : t.audctl = s.audctl
  skctl : t.skctl = s.skctl
  irqen : t.irqen = s.irqen
  kbcode : t.kbcode = s.kbcode
  serout : t.serout = s.serout
  serin : t.serin = s.serin
  periods : ∀ k, (t.timer k).period = (s.timer k).period
  random : t.r9 = s.r9 ∧ t.r17 = s.r17 ∧ t.randLast = s.randLast
  potStart : t.potStart = s.potStart ∧ t.potUnit = s.potUnit
  env : ∃ l, t.env = { s.env with trace := l ++ s.env.trace }

theorem SameSettings.refl (s : State) : SameSettings s s :=
  ⟨rfl, fun _ => ⟨rfl, rfl, rfl, rfl, rfl⟩, rfl, rfl, rfl, rfl, rfl, rfl, fun _ => rfl, ⟨rfl, rfl, rfl⟩, ⟨rfl, rfl⟩, [], rfl⟩

theorem SameSettings.trans {s t u : State} (h : SameSettings s t) (h' : SameSettings t u) : SameSettings s u where
  cfg := h'.cfg.trans h.cfg
  channels c := by simp only [h'.channels c, h.channels c, and_self]
  audctl := h'.audctl.trans h.audctl
  skctl := h'.skctl.trans h.skctl
  irqen := h'.irqen.trans h.irqen
  kbcode := h'.kbcode.trans h.kbcode
  serout := h'.serout.trans h.serout
  serin := h'.serin.trans h.serin
  periods k := (h'.periods k).trans (h.periods k)
  random := by simp only [h'.random, h.random, and_self]
  potStart := by simp only [h'.potStart, h.potStart, and_self]
  env := by
    obtain ⟨l, hl⟩ := h.env
    obtain ⟨m, hm⟩ := h'.env
    exact ⟨m ++ l, by rw [hm, hl, List.append_assoc]⟩

/-- `Advance` leaves the settings. -/
theorem advance_settings (e : Nat) (s : State) : SameSettings s (advance e s) :=
  ⟨rfl, fun c => by cases c <;> exact ⟨rfl, rfl, rfl, rfl, rfl⟩, rfl, rfl, rfl, rfl, rfl, rfl,
    fun k => by cases k <;> rfl, ⟨rfl, rfl, rfl⟩, ⟨rfl, rfl⟩, [], rfl⟩

/-- The channel events of a tick leave the settings. -/
theorem channelEvents_settings (z s : State) : SameSettings s (channelEvents z s) := by
  obtain ⟨n1, n2, n3, n4, o1, o2, o3, o4, h⟩ := channelEvents_frame z s
  rw [h]
  exact ⟨rfl, fun c => by cases c <;> exact ⟨rfl, rfl, rfl, rfl, rfl⟩, rfl, rfl, rfl, rfl, rfl, rfl,
    fun k => by cases k <;> rfl, ⟨rfl, rfl, rfl⟩, ⟨rfl, rfl⟩, [], rfl⟩

/-- The sample event leaves the settings. -/
theorem sampleEvent_settings (s : State) : SameSettings s (sampleEvent s) :=
  ⟨rfl, fun c => by cases c <;> exact ⟨rfl, rfl, rfl, rfl, rfl⟩, rfl, rfl, rfl, rfl, rfl, rfl,
    fun k => by cases k <;> rfl, ⟨rfl, rfl, rfl⟩, ⟨rfl, rfl⟩, [⟨s.now, .sample (sampleValue s)⟩], rfl⟩

/-- `Settle` leaves the settings. -/
theorem settle_settings (s : State) : SameSettings s (settle s) := by
  obtain ⟨d1, d2, d4, r, c, k, q, a, p, l, h⟩ := settle_frame s
  rw [h]
  exact ⟨rfl, fun c => by cases c <;> exact ⟨rfl, rfl, rfl, rfl, rfl⟩, rfl, rfl, rfl, rfl, rfl, rfl,
    fun k => by cases k <;> rfl, ⟨rfl, rfl, rfl⟩, ⟨rfl, rfl⟩, l, rfl⟩

/-- A scheduler step leaves the settings. -/
theorem schedStep_settings (s : State) : SameSettings s (schedStep s) := by
  unfold schedStep processTick
  simp only
  refine SameSettings.trans ?_ (settle_settings _)
  have h := (advance_settings (minSelect s) s).trans (channelEvents_settings (advance (minSelect s) s) _)
  split
  · exact h.trans (sampleEvent_settings _)
  · exact h

/-- What happens on a tick leaves `now` and the gating indices. -/
theorem processTick_time (s : State) : (processTick s).now = s.now ∧ (processTick s).p4 = s.p4 ∧
    (processTick s).p5 = s.p5 ∧ (processTick s).p9 = s.p9 ∧ (processTick s).p17 = s.p17 := by
  have time : ∀ u : State, (settle u).now = u.now ∧ (settle u).p4 = u.p4 ∧ (settle u).p5 = u.p5 ∧
      (settle u).p9 = u.p9 ∧ (settle u).p17 = u.p17 := by
    intro u
    obtain ⟨d1, d2, d4, r, c, k, q, a, p, l, h⟩ := settle_frame u
    rw [h]
    exact ⟨rfl, rfl, rfl, rfl, rfl⟩
  obtain ⟨n1, n2, n3, n4, o1, o2, o3, o4, h⟩ := channelEvents_frame s s
  unfold processTick
  simp only
  have := time (if (channelEvents s s).sampleWhole = 0 then sampleEvent (channelEvents s s) else channelEvents s s)
  rw [this.1, this.2.1, this.2.2.1, this.2.2.2.1, this.2.2.2.2, h]
  split <;> exact ⟨rfl, rfl, rfl, rfl, rfl⟩

/-! ### Paddles -/

/-- All that one turn of `potgo`'s loop can change: the slot of its input, and the host's answers left. -/
theorem askStartPot_frame (s : State) (i : Fin 8) :
    ∃ p l, askStartPot s i = { s with pots := s.pots.set i p, env := { s.env with potAnswers := l } } := by
  unfold askStartPot askPot startPot
  cases s.env.potAnswers with
  | nil => exact ⟨_, s.env.potAnswers, rfl⟩
  | cons a l => cases a <;> exact ⟨_, l, rfl⟩

/-- All that `potgo` can change: the unit, the start, ALLPOT, the slots and the host's answers left
(`45_paddle.md` R191). -/
theorem potgo_frame (s : State) :
    ∃ p l, potgo s = { s with
      potUnit := if skctlFastPaddle s.skctl then s.cfg.potUnitFast else s.cfg.potUnitSlow, potStart := s.now
      allpot := 0xFF#8, pots := p, env := { s.env with potAnswers := l } } := by
  have turns : ∀ (l : List (Fin 8)) (s : State),
      ∃ p a, l.foldl askStartPot s = { s with pots := p, env := { s.env with potAnswers := a } } := by
    intro l
    induction l with
    | nil => exact fun s => ⟨s.pots, s.env.potAnswers, rfl⟩
    | cons i l ih =>
      intro s
      obtain ⟨p, a, h⟩ := askStartPot_frame s i
      obtain ⟨p', a', h'⟩ := ih (askStartPot s i)
      exact ⟨p', a', by rw [List.foldl_cons, h', h]⟩
  obtain ⟨p, a, h⟩ := turns potInputs { s with
    potUnit := if skctlFastPaddle s.skctl then s.cfg.potUnitFast else s.cfg.potUnitSlow
    potStart := s.now
    allpot := 0xFF#8 }
  exact ⟨p, a, h⟩

/-! ### Render -/

/-- A property that every scheduler step keeps holds after the loop of `RENDER`. -/
theorem renderLoop_keeps {P : State → Prop} (keep : ∀ s, P s → P (schedStep s)) :
    ∀ (fuel owed : Nat) (s t : State), P s → renderLoop fuel owed s = some t → P t := by
  intro fuel
  induction fuel with
  | zero =>
    intro owed s t hs h
    cases owed with
    | zero => simpa [renderLoop] using (Option.some.inj h) ▸ hs
    | succ o => simp [renderLoop] at h
  | succ f ih =>
    intro owed s t hs h
    cases owed with
    | zero => simpa [renderLoop] using (Option.some.inj h) ▸ hs
    | succ o => exact ih _ _ _ (keep s hs) h

/-- `RENDER` either runs its loop and settles, or faults because the loop has no end. -/
theorem execRender_cases (n : Nat) (s : State) (o : Host.Outcome State Fault Refusal) (h : execRender n s = o) :
    (∃ t, renderLoop (renderFuel n s) n s = some t ∧ o = .next (settle t)) ∨
      (renderLoop (renderFuel n s) n s = none ∧ o = .fault .renderNeverEnds) := by
  unfold execRender at h
  split at h
  · next t ht => exact .inl ⟨t, ht, h.symm⟩
  · next ht => exact .inr ⟨ht, h.symm⟩

end Sys2Proof.Machine
end

