-- ==== Sys2Proof/Laws/PerInstr.lean ====
section
/-!
SUPPORT. Statements about every operation, one lemma per constructor of `Instr`. The family `MatchesRow`: the encoding of a
well-formed operation agrees with its row of `spec/opcode_table.json` under the row's mask.
-/

namespace Sys2Proof.Laws.MatchesRow

/-- The `match` and `mask` of the operation's row of `spec/opcode_table.json`; none for the three rows without bits. -/
def row : Instr → Option (Nat × Nat)
  | .wAudf1 _ => some (0x10000, 0x1FF00)
  | .wAudc1 _ => some (0x10100, 0x1FF00)
  | .wAudf2 _ => some (0x10200, 0x1FF00)
  | .wAudc2 _ => some (0x10300, 0x1FF00)
  | .wAudf3 _ => some (0x10400, 0x1FF00)
  | .wAudc3 _ => some (0x10500, 0x1FF00)
  | .wAudf4 _ => some (0x10600, 0x1FF00)
  | .wAudc4 _ => some (0x10700, 0x1FF00)
  | .wAudctl _ => some (0x10800, 0x1FF00)
  | .wStimer _ => some (0x10900, 0x1FF00)
  | .wSkrest _ => some (0x10A00, 0x1FF00)
  | .wPotgo _ => some (0x10B00, 0x1FF00)
  | .wUnmapped _ => some (0x10C00, 0x1FF00)
  | .wSerout _ => some (0x10D00, 0x1FF00)
  | .wIrqen _ => some (0x10E00, 0x1FF00)
  | .wSkctl _ => some (0x10F00, 0x1FF00)
  | .wOutOfRange _ _ => some (0x10000, 0x10000)
  | .rPot0 => some (0x00000, 0x1FF00)
  | .rPot1 => some (0x00100, 0x1FF00)
  | .rPot2 => some (0x00200, 0x1FF00)
  | .rPot3 => some (0x00300, 0x1FF00)
  | .rPot4 => some (0x00400, 0x1FF00)
  | .rPot5 => some (0x00500, 0x1FF00)
  | .rPot6 => some (0x00600, 0x1FF00)
  | .rPot7 => some (0x00700, 0x1FF00)
  | .rAllpot => some (0x00800, 0x1FF00)
  | .rKbcode => some (0x00900, 0x1FF00)
  | .rRandom => some (0x00A00, 0x1FF00)
  | .rUnmappedB => some (0x00B00, 0x1FF00)
  | .rUnmappedC => some (0x00C00, 0x1FF00)
  | .rSerin => some (0x00D00, 0x1FF00)
  | .rIrqst => some (0x00E00, 0x1FF00)
  | .rSkstat => some (0x00F00, 0x1FF00)
  | .rOutOfRange _ => some (0x00000, 0x10000)
  | .evCh1 => some (0x00, 0x1F)
  | .evCh2 => some (0x01, 0x1F)
  | .evCh3 => some (0x02, 0x1F)
  | .evCh4 => some (0x03, 0x1F)
  | .evSample => some (0x04, 0x1F)
  | .evT1 => some (0x05, 0x1F)
  | .evT2 => some (0x06, 0x1F)
  | .evT4 => some (0x07, 0x1F)
  | .evSerReady => some (0x08, 0x1F)
  | .evSerComplete => some (0x09, 0x1F)
  | .evPot0 => some (0x0A, 0x1F)
  | .evPot1 => some (0x0B, 0x1F)
  | .evPot2 => some (0x0C, 0x1F)
  | .evPot3 => some (0x0D, 0x1F)
  | .evPot4 => some (0x0E, 0x1F)
  | .evPot5 => some (0x0F, 0x1F)
  | .evPot6 => some (0x10, 0x1F)
  | .evPot7 => some (0x11, 0x1F)
  | .render _ => none
  | .build _ _ => none
  | .reset => none

/-- The bits of a request that is a word; none for a request that has no bits. -/
def bitsOf : Request → Option Nat
  | .bus w => some w.toNat
  | .event id => some id.toNat
  | .pull _ | .build _ _ | .reset | .malformed _ _ => none

/-- The encoding agrees with the row: the same bits under the mask, or no bits where the row has none. -/
def Statement (i : Instr) : Prop :=
  i.WellFormed → (bitsOf (encode i)).map (fun w => (row i).map (fun r => w &&& r.2)) =
    (bitsOf (encode i)).map (fun _ => (row i).map Prod.fst) ∧ ((bitsOf (encode i)).isSome = (row i).isSome)

/-- The word of a bus write is 2^16, the offset at bit 8, and the data. -/
theorem writeWord_toNat (off v : Byte) : (writeWord off v).toNat = 65536 + off.toNat * 256 + v.toNat := by
  have h1 := v.isLt
  have h2 := off.isLt
  simp only [writeWord, BitVec.toNat_append, BitVec.toNat_ofNat]
  rw [← Nat.shiftLeft_add_eq_or_of_lt h1, ← Nat.shiftLeft_add_eq_or_of_lt h2]
  simp only [Nat.shiftLeft_eq]
  omega

/-- The word of a bus read is the offset at bit 8. -/
theorem readWord_toNat (off : Byte) : (readWord off).toNat = off.toNat * 256 := by
  have h2 := off.isLt
  simp only [readWord, BitVec.toNat_append, BitVec.toNat_ofNat]
  rw [← Nat.shiftLeft_add_eq_or_of_lt (by decide : 0 % 2 ^ 8 < 2 ^ 8), ← Nat.shiftLeft_add_eq_or_of_lt h2]
  simp only [Nat.shiftLeft_eq]
  omega

/-- The bits 16:8 of a word below 2^17. -/
theorem and_row_mask (w : Nat) (h : w < 2 ^ 17) : w &&& 0x1FF00 = w / 256 * 256 := by
  have key : (BitVec.ofNat 17 w) &&& 0x1FF00#17 = (BitVec.ofNat 17 w >>> 8) <<< 8 := by
    apply BitVec.eq_of_getLsbD_eq
    intro i hi
    rw [BitVec.getLsbD_and, BitVec.getLsbD_shiftLeft]
    simp only [BitVec.getLsbD_ushiftRight]
    interval_cases i <;> simp
  have := congrArg BitVec.toNat key
  simp only [BitVec.toNat_and, BitVec.toNat_ofNat, BitVec.toNat_shiftLeft, BitVec.toNat_ushiftRight] at this
  rw [Nat.mod_eq_of_lt h] at this
  norm_num [Nat.shiftLeft_eq, Nat.shiftRight_eq_div_pow] at this h
  omega

/-- The bit 16 of a word below 2^17. -/
theorem and_direction_mask (w : Nat) (h : w < 2 ^ 17) : w &&& 0x10000 = w / 65536 * 65536 := by
  have key : (BitVec.ofNat 17 w) &&& 0x10000#17 = (BitVec.ofNat 17 w >>> 16) <<< 16 := by
    apply BitVec.eq_of_getLsbD_eq
    intro i hi
    rw [BitVec.getLsbD_and, BitVec.getLsbD_shiftLeft]
    simp only [BitVec.getLsbD_ushiftRight]
    interval_cases i <;> simp
  have := congrArg BitVec.toNat key
  simp only [BitVec.toNat_and, BitVec.toNat_ofNat, BitVec.toNat_shiftLeft, BitVec.toNat_ushiftRight] at this
  rw [Nat.mod_eq_of_lt h] at this
  norm_num [Nat.shiftLeft_eq, Nat.shiftRight_eq_div_pow] at this h
  omega

/-- The masked word of a write is its row's `match`. -/
theorem writeWord_row (off v : Byte) : (writeWord off v).toNat &&& 0x1FF00 = 65536 + off.toNat * 256 := by
  have h := v.isLt
  rw [and_row_mask _ (writeWord off v).isLt, writeWord_toNat]
  omega

/-- The masked word of a read is its row's `match`. -/
theorem readWord_row (off : Byte) : (readWord off).toNat &&& 0x1FF00 = off.toNat * 256 := by
  rw [and_row_mask _ (readWord off).isLt, readWord_toNat]
  omega

/-- The direction bit of a write. -/
theorem writeWord_direction (off v : Byte) : (writeWord off v).toNat &&& 0x10000 = 0x10000 := by
  have h := v.isLt
  have h2 := off.isLt
  rw [and_direction_mask _ (writeWord off v).isLt, writeWord_toNat]
  omega

/-- The direction bit of a read. -/
theorem readWord_direction (off : Byte) : (readWord off).toNat &&& 0x10000 = 0 := by
  have h2 := off.isLt
  rw [and_direction_mask _ (readWord off).isLt, readWord_toNat]
  omega

theorem wAudf1 (v : Byte) : Statement (.wAudf1 v) := by
  intro _
  simp [bitsOf, encode, row, writeWord_row]
theorem wAudc1 (v : Byte) : Statement (.wAudc1 v) := by
  intro _
  simp [bitsOf, encode, row, writeWord_row]
theorem wAudf2 (v : Byte) : Statement (.wAudf2 v) := by
  intro _
  simp [bitsOf, encode, row, writeWord_row]
theorem wAudc2 (v : Byte) : Statement (.wAudc2 v) := by
  intro _
  simp [bitsOf, encode, row, writeWord_row]
theorem wAudf3 (v : Byte) : Statement (.wAudf3 v) := by
  intro _
  simp [bitsOf, encode, row, writeWord_row]
theorem wAudc3 (v : Byte) : Statement (.wAudc3 v) := by
  intro _
  simp [bitsOf, encode, row, writeWord_row]
theorem wAudf4 (v : Byte) : Statement (.wAudf4 v) := by
  intro _
  simp [bitsOf, encode, row, writeWord_row]
theorem wAudc4 (v : Byte) : Statement (.wAudc4 v) := by
  intro _
  simp [bitsOf, encode, row, writeWord_row]
theorem wAudctl (v : Byte) : Statement (.wAudctl v) := by
  intro _
  simp [bitsOf, encode, row, writeWord_row]
theorem wStimer (v : Byte) : Statement (.wStimer v) := by
  intro _
  simp [bitsOf, encode, row, writeWord_row]
theorem wSkrest (v : Byte) : Statement (.wSkrest v) := by
  intro _
  simp [bitsOf, encode, row, writeWord_row]
theorem wPotgo (v : Byte) : Statement (.wPotgo v) := by
  intro _
  simp [bitsOf, encode, row, writeWord_row]
theorem wUnmapped (v : Byte) : Statement (.wUnmapped v) := by
  intro _
  simp [bitsOf, encode, row, writeWord_row]
theorem wSerout (v : Byte) : Statement (.wSerout v) := by
  intro _
  simp [bitsOf, encode, row, writeWord_row]
theorem wIrqen (v : Byte) : Statement (.wIrqen v) := by
  intro _
  simp [bitsOf, encode, row, writeWord_row]
theorem wSkctl (v : Byte) : Statement (.wSkctl v) := by
  intro _
  simp [bitsOf, encode, row, writeWord_row]
theorem wOutOfRange (off v : Byte) : Statement (.wOutOfRange off v) := by
  intro _
  simp [bitsOf, encode, row, writeWord_direction]
theorem rPot0 : Statement (.rPot0) := by
  intro _
  simp [bitsOf, encode, row, readWord_row]
theorem rPot1 : Statement (.rPot1) := by
  intro _
  simp [bitsOf, encode, row, readWord_row]
theorem rPot2 : Statement (.rPot2) := by
  intro _
  simp [bitsOf, encode, row, readWord_row]
theorem rPot3 : Statement (.rPot3) := by
  intro _
  simp [bitsOf, encode, row, readWord_row]
theorem rPot4 : Statement (.rPot4) := by
  intro _
  simp [bitsOf, encode, row, readWord_row]
theorem rPot5 : Statement (.rPot5) := by
  intro _
  simp [bitsOf, encode, row, readWord_row]
theorem rPot6 : Statement (.rPot6) := by
  intro _
  simp [bitsOf, encode, row, readWord_row]
theorem rPot7 : Statement (.rPot7) := by
  intro _
  simp [bitsOf, encode, row, readWord_row]
theorem rAllpot : Statement (.rAllpot) := by
  intro _
  simp [bitsOf, encode, row, readWord_row]
theorem rKbcode : Statement (.rKbcode) := by
  intro _
  simp [bitsOf, encode, row, readWord_row]
theorem rRandom : Statement (.rRandom) := by
  intro _
  simp [bitsOf, encode, row, readWord_row]
theorem rUnmappedB : Statement (.rUnmappedB) := by
  intro _
  simp [bitsOf, encode, row, readWord_row]
theorem rUnmappedC : Statement (.rUnmappedC) := by
  intro _
  simp [bitsOf, encode, row, readWord_row]
theorem rSerin : Statement (.rSerin) := by
  intro _
  simp [bitsOf, encode, row, readWord_row]
theorem rIrqst : Statement (.rIrqst) := by
  intro _
  simp [bitsOf, encode, row, readWord_row]
theorem rSkstat : Statement (.rSkstat) := by
  intro _
  simp [bitsOf, encode, row, readWord_row]
theorem rOutOfRange (off : Byte) : Statement (.rOutOfRange off) := by
  intro _
  simp [bitsOf, encode, row, readWord_direction]
theorem evCh1 : Statement (.evCh1) := by
  intro _
  decide
theorem evCh2 : Statement (.evCh2) := by
  intro _
  decide
theorem evCh3 : Statement (.evCh3) := by
  intro _
  decide
theorem evCh4 : Statement (.evCh4) := by
  intro _
  decide
theorem evSample : Statement (.evSample) := by
  intro _
  decide
theorem evT1 : Statement (.evT1) := by
  intro _
  decide
theorem evT2 : Statement (.evT2) := by
  intro _
  decide
theorem evT4 : Statement (.evT4) := by
  intro _
  decide
theorem evSerReady : Statement (.evSerReady) := by
  intro _
  decide
theorem evSerComplete : Statement (.evSerComplete) := by
  intro _
  decide
theorem evPot0 : Statement (.evPot0) := by
  intro _
  decide
theorem evPot1 : Statement (.evPot1) := by
  intro _
  decide
theorem evPot2 : Statement (.evPot2) := by
  intro _
  decide
theorem evPot3 : Statement (.evPot3) := by
  intro _
  decide
theorem evPot4 : Statement (.evPot4) := by
  intro _
  decide
theorem evPot5 : Statement (.evPot5) := by
  intro _
  decide
theorem evPot6 : Statement (.evPot6) := by
  intro _
  decide
theorem evPot7 : Statement (.evPot7) := by
  intro _
  decide
theorem render (n : Nat) : Statement (.render n) := fun _ => ⟨rfl, rfl⟩
theorem build (n : Nat) (slice : Slice) : Statement (.build n slice) := fun _ => ⟨rfl, rfl⟩
theorem reset : Statement (.reset) := fun _ => ⟨rfl, rfl⟩

end Sys2Proof.Laws.MatchesRow
end

