-- ==== Sys2Proof/Machine/Assembler.lean ====
section
/-!
DEFINITION. The assembler syntax the spec's programs use (`30_encoding.md` R72): one operation per line, as text.
-/

namespace Sys2Proof.Machine

/-- One hexadecimal digit. -/
def hexDigit (n : Nat) : String :=
  (["0", "1", "2", "3", "4", "5", "6", "7", "8", "9", "A", "B", "C", "D", "E", "F"][n % 16]?).getD "0"

/-- A byte as `0x` and two hexadecimal digits. -/
def hexByte (b : Byte) : String := "0x" ++ hexDigit (b.toNat / 16) ++ hexDigit b.toNat

/-- The text of an operation (`30_encoding.md` R72); an internal event has no text of the host's, so its table name
stands in parentheses. -/
def assembly : Instr → String
  | .wAudf1 v => "W AUDF1, " ++ hexByte v
  | .wAudc1 v => "W AUDC1, " ++ hexByte v
  | .wAudf2 v => "W AUDF2, " ++ hexByte v
  | .wAudc2 v => "W AUDC2, " ++ hexByte v
  | .wAudf3 v => "W AUDF3, " ++ hexByte v
  | .wAudc3 v => "W AUDC3, " ++ hexByte v
  | .wAudf4 v => "W AUDF4, " ++ hexByte v
  | .wAudc4 v => "W AUDC4, " ++ hexByte v
  | .wAudctl v => "W AUDCTL, " ++ hexByte v
  | .wStimer v => "W STIMER, " ++ hexByte v
  | .wSkrest v => "W SKREST, " ++ hexByte v
  | .wPotgo v => "W POTGO, " ++ hexByte v
  | .wUnmapped v => "W @0x0C, " ++ hexByte v
  | .wSerout v => "W SEROUT, " ++ hexByte v
  | .wIrqen v => "W IRQEN, " ++ hexByte v
  | .wSkctl v => "W SKCTL, " ++ hexByte v
  | .wOutOfRange off v => "W @" ++ hexByte off ++ ", " ++ hexByte v
  | .rPot0 => "R POT0"
  | .rPot1 => "R POT1"
  | .rPot2 => "R POT2"
  | .rPot3 => "R POT3"
  | .rPot4 => "R POT4"
  | .rPot5 => "R POT5"
  | .rPot6 => "R POT6"
  | .rPot7 => "R POT7"
  | .rAllpot => "R ALLPOT"
  | .rKbcode => "R KBCODE"
  | .rRandom => "R RANDOM"
  | .rUnmappedB => "R @0x0B"
  | .rUnmappedC => "R @0x0C"
  | .rSerin => "R SERIN"
  | .rIrqst => "R IRQST"
  | .rSkstat => "R SKSTAT"
  | .rOutOfRange off => "R @" ++ hexByte off
  | .evCh1 => "(EV_CH1)"
  | .evCh2 => "(EV_CH2)"
  | .evCh3 => "(EV_CH3)"
  | .evCh4 => "(EV_CH4)"
  | .evSample => "(EV_SAMPLE)"
  | .evT1 => "(EV_T1)"
  | .evT2 => "(EV_T2)"
  | .evT4 => "(EV_T4)"
  | .evSerReady => "(EV_SER_READY)"
  | .evSerComplete => "(EV_SER_COMPLETE)"
  | .evPot0 => "(EV_POT0)"
  | .evPot1 => "(EV_POT1)"
  | .evPot2 => "(EV_POT2)"
  | .evPot3 => "(EV_POT3)"
  | .evPot4 => "(EV_POT4)"
  | .evPot5 => "(EV_POT5)"
  | .evPot6 => "(EV_POT6)"
  | .evPot7 => "(EV_POT7)"
  | .render n => "RENDER " ++ toString n
  | .build n _ => "BUILD " ++ toString n
  | .reset => "RESET"

end Sys2Proof.Machine
end

