-- ==== Sys2Proof/Tests/Slice0.lean ====
section
/-!
SUPPORT. Tests. Expected values come from the spec: the worked examples of the rules, the vectors of `95_test_vectors.md`,
or a calculation by hand from the rule named. The last part shows, for the statements with hypotheses, states that meet
them.
-/

namespace Sys2Proof.Tests

open Sys2Proof Sys2Proof.Machine

/-- A view of the next state of an outcome; none for a stop. -/
def look {α : Type} (o : Host.Outcome State Fault Refusal) (f : State → α) : Option α :=
  match o with
  | .next t => some (f t)
  | _ => none

/-- The next state of an outcome, or the reset state for a stop. -/
def after (o : Host.Outcome State Fault Refusal) : State := (look o id).getD State.reset

/-- What the host has been told, newest first, without the ticks. -/
def heard (s : State) : List HostEvent := s.env.trace.map Logged.event

/-- Configuration B of `95_test_vectors.md`: one sample per tick. -/
def perTickConfig : Config := { Config.standard with sampleRate := 1789790 }

/-- The reset state of configuration B. -/
def resetB : State := State.resetFor perTickConfig HostSide.idle

/-- The inaudibility option switched on. -/
def resetOpt : State := State.resetFor { Config.standard with optInaudible := true } HostSide.idle

/-- The reset state with the host's paddle answers. -/
def withPots (l : List (Option Nat)) : State := { State.reset with env := { HostSide.idle with potAnswers := l } }

/-- A state with conversions in flight: `45_paddle.md` R191's example, 100 units on input 0, 0 on input 1. -/
def potExample : State :=
  { withPots [some 100, some 0, none, none, none, none, none, none] with now := 500 }

/-! ### Well-formedness: each check refuses an ill-formed term -/

theorem test_wf_write_offset : ¬ (Instr.wOutOfRange 0x0F 0x55).WellFormed ∧ (Instr.wOutOfRange 0x10 0x55).WellFormed := by
  decide
theorem test_wf_read_offset : ¬ (Instr.rOutOfRange 0x0F).WellFormed ∧ (Instr.rOutOfRange 0x10).WellFormed := by decide
theorem test_wf_build_length : ¬ (Instr.build 6 .gate).WellFormed ∧ (Instr.build 5 .gate).WellFormed := by decide
theorem test_wf_build_slice : ¬ (Instr.build 5 .random).WellFormed ∧ (Instr.build 9 .random).WellFormed := by decide

/-! ### Decoding: a word of every operation, written out from `30_encoding.md` R61 to R63 (W, OFF, DATA) -/

theorem test_decode_audio_writes : ∀ q ∈ ([
    (0b1_00000000_00010000, .wAudf1 0x10), (0b1_00000001_10101111, .wAudc1 0xAF),
    (0b1_00000010_00010010, .wAudf2 0x12), (0b1_00000011_11001000, .wAudc2 0xC8),
    (0b1_00000100_10000001, .wAudf3 0x81), (0b1_00000101_01001000, .wAudc3 0x48),
    (0b1_00000110_11111111, .wAudf4 0xFF), (0b1_00000111_00011111, .wAudc4 0x1F),
    (0b1_00001000_01010000, .wAudctl 0x50)] : List (Nat × Instr)), decodeTableWord 24 q.1 = some q.2 := by decide

theorem test_decode_control_writes : ∀ q ∈ ([
    (0b1_00001001_00000000, .wStimer 0x00), (0b1_00001010_00000001, .wSkrest 0x01),
    (0b1_00001011_10000000, .wPotgo 0x80), (0b1_00001100_11111111, .wUnmapped 0xFF),
    (0b1_00001101_01000001, .wSerout 0x41), (0b1_00001110_00000111, .wIrqen 0x07),
    (0b1_00001111_00000111, .wSkctl 0x07), (0b1_00010000_00000001, .wOutOfRange 0x10 0x01),
    (0b1_11111111_01010101, .wOutOfRange 0xFF 0x55)] : List (Nat × Instr)), decodeTableWord 24 q.1 = some q.2 := by decide

theorem test_decode_reads : ∀ q ∈ ([
    (0b0_00000000_00000000, .rPot0), (0b0_00000001_00000000, .rPot1), (0b0_00000010_00000000, .rPot2),
    (0b0_00000011_00000000, .rPot3), (0b0_00000100_00000000, .rPot4), (0b0_00000101_00000000, .rPot5),
    (0b0_00000110_00000000, .rPot6), (0b0_00000111_00000000, .rPot7), (0b0_00001000_00000000, .rAllpot),
    (0b0_00001001_00000000, .rKbcode), (0b0_00001010_01111111, .rRandom), (0b0_00001011_00000000, .rUnmappedB),
    (0b0_00001100_00000000, .rUnmappedC), (0b0_00001101_00000000, .rSerin), (0b0_00001110_00000000, .rIrqst),
    (0b0_00001111_11111111, .rSkstat), (0b0_00010000_00000000, .rOutOfRange 0x10),
    (0b0_00011010_00000000, .rOutOfRange 0x1A)] : List (Nat × Instr)), decodeTableWord 24 q.1 = some q.2 := by decide

theorem test_decode_events : ∀ q ∈ ([
    (0b00000, .evCh1), (0b00001, .evCh2), (0b00010, .evCh3), (0b00011, .evCh4), (0b00100, .evSample), (0b00101, .evT1),
    (0b00110, .evT2), (0b00111, .evT4), (0b01000, .evSerReady), (0b01001, .evSerComplete), (0b01010, .evPot0),
    (0b01011, .evPot1), (0b01100, .evPot2), (0b01101, .evPot3), (0b01110, .evPot4), (0b01111, .evPot5), (0b10000, .evPot6),
    (0b10001, .evPot7)] : List (Nat × Instr)), decodeTableWord 8 q.1 = some q.2 := by decide

theorem test_decode_operations_without_bits : decode (.pull 12) = .ok (.render 12) ∧
    decode (.build 17 .random) = .ok (.build 17 .random) ∧ decode .reset = .ok .reset ∧
    decode (.event 0b10010) = .error (.reservedEvent 18) := by decide

-- `30_encoding.md` R72's syntax, the words of `95_test_vectors.md` 2.8.
theorem test_assembly : assembly (.wAudc1 0xAF) = "W AUDC1, 0xAF" ∧ assembly (.rOutOfRange 0x1A) = "R @0x1A" ∧
    assembly (.render 12) = "RENDER 12" := by decide +kernel

/-! ### Register writes -/

-- `41_channel.md` R110's example.
theorem test_wAudf1 : look (exec (.wAudf1 0x10) State.reset) (fun t => (t.ch1.divisor, t.ch1.counter)) =
    some (.at 476, .at 28) := by decide
-- V24's CH2 with the low byte written last.
theorem test_wAudf1_joined : look (exec (.wAudf1 0x34)
    { State.reset with audctl := 0x10, ch2 := { State.reset.ch2 with audf := 0x12 } }) (fun t => (t.ch1.divisor, t.ch2.divisor)) =
    some (.at 1484, .at 130508) := by decide
-- R111's example, V22.
theorem test_wAudf2 : look (exec (.wAudf2 0x12)
    { State.reset with audctl := 0x50, ch1 := { State.reset.ch1 with audf := 0x34 } }) (fun t => (t.ch1.divisor, t.ch2.divisor)) =
    some (.at 28, .at 4667) := by decide
-- R112's example, with the clamp of R105.
theorem test_wAudf3 : look (exec (.wAudf3 0x00) { State.reset with audctl := 0x20 })
    (fun t => (t.ch3.divisor, t.ch3.counter)) = some (.at 4, .at 4) := by decide
-- V26's CH4 with the low byte written last: joined on the fast clock, 0x0101 + 7.
theorem test_wAudf3_joined : look (exec (.wAudf3 0x01)
    { State.reset with audctl := 0x28, ch4 := { State.reset.ch4 with audf := 0x01 } }) (fun t => t.ch4.divisor) =
    some (.at 264) := by decide
-- R113's example.
theorem test_wAudf4 : look (exec (.wAudf4 0xFF) { State.reset with audctl := 0x01 }) (fun t => (t.ch4.divisor, t.ch3.divisor)) =
    some (.at 29184, .at 28) := by decide
-- R114's example.
theorem test_wAudc1 : look (exec (.wAudc1 0xAF) State.reset) (fun t => (t.ch1.volume, t.ch1.audible, t.ch1.output)) =
    some (11160, true, false) := by decide
-- `95_test_vectors.md` 2.2, the inaudibility option on.
theorem test_wAudc1_inaudible : look (exec (.wAudc1 0xAF) resetOpt)
    (fun t => (t.ch1.volume, t.ch1.audible, t.ch1.output, t.ch1.counter)) = some (5580, false, true, .never) := by decide
-- R115's example, from a volume that was not 0.
theorem test_wAudc2 : look (exec (.wAudc2 0x00)
    { State.reset with ch2 := { State.reset.ch2 with audc := 0xAF, volume := 11160, audible := true } })
    (fun t => (t.ch2.volume, t.ch2.audible)) = some (0, false) := by decide
-- R116's example.
theorem test_wAudc3 : look (exec (.wAudc3 0x48) State.reset) (fun t => (t.ch3.volume, gateMode t.ch3.audc t.audctl)) =
    some (5952, .poly4) := by decide
-- R117's example: 11160 in every sample whatever the level.
theorem test_wAudc4 : look (exec (.wAudc4 0x1F) State.reset) (fun t => (t.ch4.volume, t.ch4.output, sampleValue t)) =
    some (11160, false, 11160) := by decide
-- R118's example.
theorem test_wAudctl : look (exec (.wAudctl 0x01) State.reset) (fun t => (t.ch1.divisor, t.ch4.divisor, t.ch4.counter)) =
    some (.at 114, .at 114, .at 28) := by decide
-- V23: the counters of CH1 and CH2 are clamped.
theorem test_wAudctl_clamps : look (exec (.wAudctl 0x50) State.reset) (fun t => (t.ch1.counter, t.ch2.counter, t.ch3.counter)) =
    some (.at 4, .at 7, .at 28) := by decide
-- `43_timer_irq.md` R151's example.
theorem test_wStimer : look (exec (.wStimer 0xFF) { State.reset with
      now := 1000
      ch1 := { State.reset.ch1 with divisor := .at 476 }
      ch2 := { State.reset.ch2 with divisor := .at 924 } })
    (fun t => (t.ch2.counter, t.t1.deadline, t.t2.deadline, t.t4.deadline, t.t4.period)) =
    some (.at 0, some 1476, some 1924, some 1028, some 28) := by decide
-- V40: a divisor of 4 arms no timer.
theorem test_wStimer_short : look (exec (.wStimer 0x00)
    { State.reset with audctl := 0x40, ch1 := { State.reset.ch1 with divisor := .at 4 } }) (fun t => (t.t1.period, t.t2.period)) =
    some (none, some 28) := by decide
-- V47.
theorem test_wSkrest : look (exec (.wSkrest 0x00) { State.reset with skstat := 0xE2 }) (fun t => t.skstat) = some 0x02 := by
  decide
-- `45_paddle.md` R191's example.
theorem test_wPotgo : look (exec (.wPotgo 0x00) potExample)
    (fun t => (t.potStart, t.potUnit, t.allpot, (t.pot 0).deadline, (t.pot 1).deadline)) =
    some (500, 114, 0xFD, some 11900, none) := by decide
-- V49 and V53: the clamp to 228, the fast unit.
theorem test_wPotgo_fast : look (exec (.wPotgo 0x00) { withPots [none, none, none, some 300] with skctl := 0x07 })
    (fun t => (t.potUnit, (t.pot 3).target, (t.pot 3).deadline, t.allpot)) = some (16, some 228, some 3648, 0xFF) := by decide
-- V55.
theorem test_wUnmapped : exec (.wUnmapped 0xFF) State.reset = .next State.reset := by rfl
-- `44_serial.md` R171's example.
theorem test_wSerout : look (exec (.wSerout 0x41) { State.reset with now := 1000 })
    (fun t => (t.serout, t.skstat, t.serReady, t.serComplete, heard t)) =
    some (0x41, 0x02, some 1357, some 4579, [.serialOut 0x41]) := by decide
-- `43_timer_irq.md` R153's example.
theorem test_wIrqen : look (exec (.wIrqen 0x06) { State.reset with irqen := 0x07, irqst := 0x05 })
    (fun t => (t.irqst, t.irqen, heard t)) = some (0x04, 0x06, []) := by decide
-- `46_register_interface.md` R211's example.
theorem test_wSkctl : look (exec (.wSkctl 0x07) State.reset) (fun t => t.skctl) = some 0x07 := by decide
-- V56.
theorem test_wOutOfRange : exec (.wOutOfRange 0x1A 0x55) State.reset = .next State.reset := by rfl

/-! ### Register reads -/

/-- Input i latched at `10 * (i + 1)`, inputs 0 and 2 converting since tick 500 (`45_paddle.md` R193's example). -/
def potReads : State :=
  { State.reset with
    now := 6200, potStart := 500, potUnit := 114, allpot := 0x05
    pots := #v[
      { target := some 100, deadline := some 11900, latched := 10 }, { target := none, deadline := none, latched := 20 },
      { target := none, deadline := none, latched := 30 }, { target := none, deadline := none, latched := 40 },
      { target := none, deadline := none, latched := 50 }, { target := none, deadline := none, latched := 60 },
      { target := none, deadline := none, latched := 70 }, { target := none, deadline := none, latched := 80 }] }

-- `45_paddle.md` R193: 50 for the converting inputs of its example, else the latched byte of the input's own slot.
theorem test_rPots : ([.rPot0, .rPot1, .rPot2, .rPot3, .rPot4, .rPot5, .rPot6, .rPot7] : List Instr).map
    (fun i => look (exec i potReads) heard) =
    [50, 20, 50, 40, 50, 60, 70, 80].map (fun n => some [.readReturned (BitVec.ofNat 8 n)]) := by decide
-- V51: an unconnected input stays at 228.
theorem test_rPot2_unconnected : look (exec .rPot2 { potReads with now := 100000 }) heard = some [.readReturned 228] := by decide
-- V52, and R194's example without an override.
theorem test_rAllpot : look (exec .rAllpot { State.reset with
      allpot := 0xFC, env := { HostSide.idle with allpotAnswers := [some 0x12] } })
    (fun t => (heard t, t.allpot)) = some ([.readReturned 0x12], 0xFC) := by decide
theorem test_rAllpot_absent : look (exec .rAllpot { State.reset with allpot := 0xFC }) heard = some [.readReturned 0xFC] := by
  decide
-- R212's example.
theorem test_rKbcode : look (exec .rKbcode State.reset) heard = some [.readReturned 0x09] := by decide
-- `40_polynomial.md` R87's worked example.
theorem test_rRandom : look (exec .rRandom { State.reset with now := 100 }) (fun t => (heard t, t.r9, t.r17, t.randLast)) =
    some ([.readReturned 0xD7], 100, 100, 100) := by decide +kernel
-- V14's first read: counted from the last frozen read, the 9-bit table.
theorem test_rRandom_poly9 : look (exec .rRandom { State.reset with now := 666, randLast := 661, audctl := 0x80 }) heard =
    some [.readReturned 0x2A] := by decide
-- V56, R214.
theorem test_rUnmappedB : look (exec .rUnmappedB State.reset) heard = some [.readReturned 0x00] := by decide
theorem test_rUnmappedC : look (exec .rUnmappedC State.reset) heard = some [.readReturned 0x00] := by decide
-- V48.
theorem test_rSerin : look (exec .rSerin { State.reset with env := { HostSide.idle with serialAnswers := [0x5A, 0x77] } })
    (fun t => (heard t, t.serin, t.env.serialAnswers)) = some ([.readReturned 0x5A], 0x5A, [0x77]) := by decide
-- R154's example.
theorem test_rIrqst : look (exec .rIrqst { State.reset with irqst := 0x04, irqen := 0x04 }) (fun t => (heard t, t.irqst)) =
    some ([.readReturned 0xFB], 0x04) := by decide
-- R176's example.
theorem test_rSkstat : look (exec .rSkstat { State.reset with skstat := 0x02 }) heard = some [.readReturned 0xFD] := by decide
-- V56.
theorem test_rOutOfRange : look (exec (.rOutOfRange 0x1A) State.reset) heard = some [.readReturned 0x00] := by decide

/-! ### Events -/

-- `41_channel.md` R120's example.
theorem test_evCh1 : look (exec .evCh1 { State.reset with ch1 := { State.reset.ch1 with audc := 0xAF, counter := .at 0 } })
    (fun t => (t.ch1.output, t.ch1.counter)) = some (true, .at 28) := by decide
-- V31c at tick 28: the 4-bit table at index 13 holds 0, so a HIGH output falls.
theorem test_evCh1_poly4 : look (exec .evCh1
    { State.reset with p4 := 13, ch1 := { State.reset.ch1 with audc := 0xC8, output := true } }) (fun t => t.ch1.output) =
    some false := by decide
-- R121's corner case: the filter link forces CH2 LOW after its toggle.
theorem test_evCh2 : look (exec .evCh2 { State.reset with
      audctl := 0x02
      ch2 := { State.reset.ch2 with audc := 0xAF, counter := .at 0, divisor := .at 4667 }
      ch4 := { State.reset.ch4 with output := true } })
    (fun t => (t.ch2.output, t.ch2.counter)) = some (false, .at 4667) := by decide
-- V31b at tick 112: `poly5[19] = 1` opens the gate of a pure tone.
theorem test_evCh2_gated : look (exec .evCh2
    { State.reset with p5 := 19, ch2 := { State.reset.ch2 with audc := 0x28 } }) (fun t => t.ch2.output) = some true := by decide
-- R122's example.
theorem test_evCh3 : look (exec .evCh3 { State.reset with
      audctl := 0x04
      ch1 := { State.reset.ch1 with output := true }
      ch3 := { State.reset.ch3 with audc := 0xAF } })
    (fun t => (t.ch3.output, t.ch1.output)) = some (true, false) := by decide
-- R123's example; `poly17[6] = 1`.
theorem test_evCh4 : look (exec .evCh4 { State.reset with
      audctl := 0x02, p17 := 6
      ch2 := { State.reset.ch2 with output := true }
      ch4 := { State.reset.ch4 with audc := 0x88, output := true } })
    (fun t => (t.ch4.output, t.ch2.output)) = some (true, false) := by decide
-- `42_scheduler.md` R137's example.
theorem test_evSample : look (exec .evSample State.reset) (fun t => (t.sampleWhole, t.sampleFract, heard t)) =
    some (81, 42, [.sample 0]) := by decide
-- V36: three volume-only channels, 33480 clamped.
theorem test_evSample_clamp : look (exec .evSample { State.reset with
      ch1 := { State.reset.ch1 with audc := 0x1F, volume := 11160 }
      ch2 := { State.reset.ch2 with output := true, volume := 11160 }
      ch3 := { State.reset.ch3 with audc := 0x1F, volume := 11160 } }) heard = some [.sample 32767] := by decide
-- `43_timer_irq.md` R155's example.
theorem test_evT1 : look (exec .evT1
    { State.reset with now := 476, irqen := 0x01, t1 := { period := some 476, deadline := some 476 } })
    (fun t => (t.t1.deadline, t.irqst, heard t)) = some (some 952, 0x01, [.irqSink 0x01]) := by decide
-- R157's example.
theorem test_evT2 : look (exec .evT2
    { State.reset with now := 924, irqen := 0x03, irqst := 0x01, t2 := { period := some 924, deadline := some 924 } })
    (fun t => (t.t2.deadline, t.irqst, heard t)) = some (some 1848, 0x03, [.irqSink 0x03]) := by decide
-- R158's example: disabled, so no pending bit and no call.
theorem test_evT4 : look (exec .evT4 { State.reset with now := 28, t4 := { period := some 28, deadline := some 28 } })
    (fun t => (t.t4.deadline, t.irqst, heard t)) = some (some 56, 0x00, []) := by decide
theorem test_evT4_enabled : look (exec .evT4
    { State.reset with now := 28, irqen := 0x04, t4 := { period := some 28, deadline := some 28 } })
    (fun t => (t.irqst, heard t)) = some (0x04, [.irqSink 0x04]) := by decide
-- `44_serial.md` R172's example.
theorem test_evSerReady : look (exec .evSerReady
    { State.reset with now := 1357, irqen := 0x18, skstat := 0x02, serReady := some 1357, serComplete := some 4579 })
    (fun t => (t.serReady, t.serComplete, t.skstat, t.irqst, heard t)) =
    some (none, some 4579, 0x02, 0x10, [.irqSink 0x10]) := by decide
-- R173's example.
theorem test_evSerComplete : look (exec .evSerComplete
    { State.reset with now := 4579, irqen := 0x18, irqst := 0x10, skstat := 0x02, serComplete := some 4579 })
    (fun t => (t.serComplete, t.skstat, t.irqst, heard t)) = some (none, 0x00, 0x18, [.irqSink 0x18]) := by decide

/-- Every input converting and due now, input i with the target `i + 100`. -/
def potsDue : State :=
  { State.reset with
    now := 50, allpot := 0xFF
    pots := Vector.ofFn fun i => { target := some (i.val + 100), deadline := some 50, latched := 0 } }

-- `45_paddle.md` R195: each event latches its own input's target and clears its own bit.
theorem test_evPots : ∀ q ∈ ([(.evPot0, 0), (.evPot1, 1), (.evPot2, 2), (.evPot3, 3), (.evPot4, 4), (.evPot5, 5),
    (.evPot6, 6), (.evPot7, 7)] : List (Instr × Fin 8)),
    look (exec q.1 potsDue) (fun t => ((t.pot q.2).latched.toNat, (t.pot q.2).deadline, t.allpot.toNat, t.irqst)) =
      some (q.2.val + 100, none, 255 - 2 ^ q.2.val, 0x00) := by decide

/-! ### RENDER, BUILD, RESET -/

-- `42_scheduler.md` R136's example, V32.
theorem test_render : look (exec (.render 1) State.reset)
    (fun t => ((t.now, t.ch1.counter, heard t), (t.p4, t.p5, t.p9, t.p17), t.sampleWhole, t.sampleFract)) =
    some ((40, .at 16, [.sample 0]), (10, 9, 40, 40), 41, 42) := by decide +kernel
-- V35 from tick 27 on: the sample of tick 28 already holds the toggle of tick 28.
theorem test_render_order : look (exec (.render 2) { resetB with
      now := 26
      ch1 := { resetB.ch1 with counter := .at 2, audc := 0xAF, volume := 11160, audible := true } }) heard =
    some [.sample 11160, .sample 0] := by decide +kernel
-- R134: on one tick the sample comes before the interrupts, T1 before T2, T2 before serial ready, ready before complete.
theorem test_tick_order : look (exec (.render 1) { resetB with
      irqen := 0x1B, skstat := 0x02, serReady := some 1, serComplete := some 1
      t1 := { period := some 28, deadline := some 1 }, t2 := { period := some 28, deadline := some 1 } }) heard =
    some [.irqSink 0x1B, .irqSink 0x13, .irqSink 0x03, .irqSink 0x01, .sample 0] := by decide +kernel
-- V2, and the first entries of `rand9` in R83 (the table's head, by the same function).
theorem test_build : look (exec (.build 4 .gate) State.reset) heard =
    some [.tableBuilt [0, 0, 0, 1, 1, 1, 1, 0, 1, 0, 1, 1, 0, 0, 1]] := by decide
-- R83's entries 1, 2, 3, 5.
theorem test_build_slices : [rand9 1, rand9 2, rand9 3, rand9 5] = [0x80#8, 0x81#8, 0x85#8, 0xD5#8] ∧
    [rand17 2, rand17 3, rand17 5, rand17 100] = [0x01#8, 0xC1#8, 0xD9#8, 0x28#8] := by decide +kernel
-- `30_encoding.md` R63: no such table.
theorem test_build_refused : exec (.build 6 .gate) State.reset = .refused (.tableLengthMismatch 6) := by rfl
-- R250: reset from a state far from it.
theorem test_reset : look (exec .reset { potReads with irqen := 0xFF, audctl := 0x50 })
    (fun t => (t.skctl, t.irqen, t.audctl, t.allpot, t.now, (t.pot 3).latched)) = some (0x03, 0x00, 0x00, 0x00, 0, 0) := by decide

/-! ### The step -/

theorem test_step_runs_the_word : step (State.reset.withFetchWord 24 0x10010) = exec (.wAudf1 0x10) State.reset := by rfl
theorem test_step_idle : step State.reset = .next State.reset := by rfl
theorem test_step_refuses_reserved_event : step (State.reset.withFetchWord 8 0x12) = .refused (.undecodable (.reservedEvent 18)) := by
  rfl
theorem test_step_hooks :
    look (step (State.reset.setInbox [.setError 0b111])) (fun t => t.skstat) = some 0xE0 ∧
    look (step (State.reset.setInbox [.setKbcode 0x21])) (fun t => t.kbcode) = some 0x21 := by decide

/-! ### Witnesses: states that meet the hypotheses of the statements

Where a statement has several clauses, each clause has its witness, at the boundary of its range.
-/

/-- The clauses of the invariant on one channel, as a check. -/
def channelCheck (s : State) (c : Ch) : Bool :=
  decide ((s.ch c).divisor = .at (divisorOf s c)) && (decide ((s.ch c).audible = audibleOf s c) &&
    (decide ((s.ch c).volume = if s.cfg.optInaudible && !(s.ch c).audible then volumeOf s c >>> 1 else volumeOf s c) &&
    (match (s.ch c).counter with
      | .at n => decide (n ≤ divisorOf s c)
      | .never => s.cfg.optInaudible)))

/-- The clauses on the serial deadlines. -/
def serialCheck (s : State) : Bool :=
  match s.serReady, s.serComplete with
  | none, _ => true
  | some r, some d => decide (r < d)
  | some _, none => false

/-- The clauses on one timer. -/
def timerCheck (s : State) (k : TimerId) : Bool :=
  match (s.timer k).period, (s.timer k).deadline with
  | none, none => true
  | some p, some _ => decide (s.cfg.timerMin < p)
  | _, _ => false

/-- The clauses on one paddle input. -/
def potCheck (s : State) (i : Fin 8) : Bool :=
  decide ((s.pot i).latched.toNat ≤ potMax) &&
    match (s.pot i).target, (s.pot i).deadline with
    | none, none => true
    | none, some _ => false
    | some t, none => decide (converting s i = false ∧ (s.pot i).latched = BitVec.ofNat 8 t ∧
        s.potStart + t * s.potUnit ≤ s.now ∧ t ≤ potMax)
    | some t, some d => decide (converting s i = true ∧ d = s.potStart + t * s.potUnit ∧ t ≤ potMax)

/-- The invariant as a check. -/
def invCheck (s : State) : Bool :=
  decide (s.cfg.Valid ∧ s.Settled ∧
    (channelCheck s .ch1 = true ∧ channelCheck s .ch2 = true ∧ channelCheck s .ch3 = true ∧ channelCheck s .ch4 = true) ∧
    (s.irqst &&& ~~~s.irqen = 0#8 ∧ s.skstat.getLsbD 1 = s.serComplete.isSome ∧ serialCheck s = true) ∧
    (timerCheck s .t1 = true ∧ timerCheck s .t2 = true ∧ timerCheck s .t4 = true) ∧
    (∀ i : Fin 8, potCheck s i = true) ∧
    (1 ≤ s.potUnit ∧ s.potStart ≤ s.now ∧ s.randLast ≤ s.now) ∧
    (s.p4 = s.now % polyLen 4 ∧ s.p5 = s.now % polyLen 5 ∧ s.p9 = s.now % polyLen 9 ∧ s.p17 = s.now % polyLen 17) ∧
    (s.r9 < polyLen 9 ∧ s.r17 < polyLen 17 ∧ s.sampleFract < 256))

theorem channelCheck_spec {s : State} {c : Ch} (h : channelCheck s c = true) :
    (s.ch c).divisor = .at (divisorOf s c) ∧ (s.ch c).audible = audibleOf s c ∧
    (s.ch c).volume = (if s.cfg.optInaudible && !(s.ch c).audible then volumeOf s c >>> 1 else volumeOf s c) ∧
    (∀ n, (s.ch c).counter = .at n → n ≤ divisorOf s c) ∧ ((s.ch c).counter = .never → s.cfg.optInaudible = true) := by
  rw [channelCheck, Bool.and_eq_true, Bool.and_eq_true, Bool.and_eq_true] at h
  obtain ⟨h1, h2, h3, h4⟩ := h
  refine ⟨of_decide_eq_true h1, of_decide_eq_true h2, of_decide_eq_true h3, fun n hn => ?_, fun hn => ?_⟩
  · rw [hn] at h4; exact of_decide_eq_true h4
  · rw [hn] at h4; exact h4

theorem timerCheck_spec {s : State} {k : TimerId} (h : timerCheck s k = true) :
    (s.timer k).deadline.isSome = (s.timer k).period.isSome ∧ ∀ p, (s.timer k).period = some p → s.cfg.timerMin < p := by
  revert h
  rw [timerCheck]
  cases (s.timer k).period <;> cases (s.timer k).deadline <;> simp

theorem potCheck_spec {s : State} {i : Fin 8} (h : potCheck s i = true) :
    (∀ d, (s.pot i).deadline = some d → converting s i = true ∧ ∃ t, (s.pot i).target = some t ∧ d = s.potStart + t * s.potUnit) ∧
    (∀ t, converting s i = true → (s.pot i).target = some t → (s.pot i).deadline.isSome = true) ∧
    (∀ t, converting s i = false → (s.pot i).target = some t →
      (s.pot i).latched = BitVec.ofNat 8 t ∧ s.potStart + t * s.potUnit ≤ s.now) ∧
    (∀ t, (s.pot i).target = some t → t ≤ potMax) ∧ (s.pot i).latched.toNat ≤ potMax := by
  revert h
  rw [potCheck]
  cases (s.pot i).target <;> cases (s.pot i).deadline <;> simp <;> intros <;> simp_all

/-- The checks give the invariant. -/
theorem inv_of_check {s : State} (h : invCheck s = true) : s.Inv := by
  obtain ⟨hcfg, hset, hch, ⟨hirq, htr, hser⟩, htim, hpot, hpast, hidx, hrnd⟩ := of_decide_eq_true h
  have chAll : ∀ c : Ch, channelCheck s c = true := fun c => by
    cases c
    exacts [hch.1, hch.2.1, hch.2.2.1, hch.2.2.2]
  have timAll : ∀ k : TimerId, timerCheck s k = true := fun k => by
    cases k
    exacts [htim.1, htim.2.1, htim.2.2]
  exact {
    cfgValid := hcfg
    divisorFormula := fun c => (channelCheck_spec (chAll c)).1
    audibleFormula := fun c => (channelCheck_spec (chAll c)).2.1
    volumeFormula := fun c => (channelCheck_spec (chAll c)).2.2.1
    counterBound := fun c => (channelCheck_spec (chAll c)).2.2.2.1
    neverOnlyUnderOption := fun c => (channelCheck_spec (chAll c)).2.2.2.2
    pendingEnabled := hirq
    transmitting := htr
    readyBeforeComplete := fun r hr => by
      rw [serialCheck, hr] at hser
      cases hd : s.serComplete with
      | none => simp [hd] at hser
      | some d => exact ⟨d, rfl, by simpa [hd] using hser⟩
    timersArmed := fun k => (timerCheck_spec (timAll k)).1
    timerPeriodLong := fun k => (timerCheck_spec (timAll k)).2
    potPending := fun i => (potCheck_spec (hpot i)).1
    potRunning := fun i => (potCheck_spec (hpot i)).2.1
    potDone := fun i => (potCheck_spec (hpot i)).2.2.1
    potTargetBound := fun i => (potCheck_spec (hpot i)).2.2.2.1
    potLatchedBound := fun i => (potCheck_spec (hpot i)).2.2.2.2
    potUnitPositive := hpast.1
    potStartPast := hpast.2.1
    randLastPast := hpast.2.2
    index4 := hidx.1
    index5 := hidx.2.1
    index9 := hidx.2.2.1
    index17 := hidx.2.2.2
    random9 := hrnd.1
    random17 := hrnd.2.1
    fractBound := hrnd.2.2
    settled := hset }

/-- An outcome that gives a next state is that next state. -/
theorem next_of_look {o : Host.Outcome State Fault Refusal} (h : look o (fun _ => true) = some true) : o = .next (after o) := by
  cases o with
  | next t => rfl
  | fault f => simp [look] at h
  | refused r => simp [look] at h

/-- The reset state of configuration B with every channel at the longest 8-bit divisor, so that few events occur. -/
def quiet (g : Config) : State :=
  let k : Channel := { (Channel.reset g) with audf := 0xFF, divisor := .at 7168, counter := .at 7168 }
  { State.resetFor g HostSide.idle with ch1 := k, ch2 := k, ch3 := k, ch4 := k }

theorem test_reset_inv : State.reset.Inv := inv_of_check (by decide)
theorem test_resetB_inv : resetB.Inv := inv_of_check (by decide)
theorem test_resetOpt_inv : resetOpt.Inv := inv_of_check (by decide)
theorem test_reset_settled : State.reset.Settled := by decide
theorem test_reset_nothing_waiting : State.reset.NothingWaiting := by decide
theorem test_configs_valid : Config.standard.Valid ∧ ¬ ({ Config.standard with clock := 4999 } : Config).Valid ∧
    ({ Config.standard with clock := 5000 } : Config).Valid := by decide
-- `45_paddle.md` R198: the fast unit is at most the slow one, 114.
theorem test_pot_units_valid : ¬ ({ Config.standard with potUnitFast := 115 } : Config).Valid ∧
    ({ Config.standard with potUnitFast := 114 } : Config).Valid := by decide

/-- For `DecodingAnEncodedInstructionGivesItBack`. -/
theorem witness_decoding : (Instr.wOutOfRange 0x10 0xFF).WellFormed ∧ (Instr.rOutOfRange 0xFF).WellFormed ∧
    (Instr.build 17 .random).WellFormed ∧ (Instr.wAudf1 0xFF).WellFormed := by decide
/-- For `EveryTransactionWordIsAnOperation`: a write, and two reads that differ in DATA. -/
theorem witness_transaction_words : (0x10010#17).getLsbD 16 = true ∧ (0x00A00#17).getLsbD 16 = false ∧
    0x00A7F#17 &&& 0x1FF00#17 = 0x00A00#17 &&& 0x1FF00#17 := by decide
/-- For `EventIdsDecodeOrAreReserved`: the last event and the first reserved id. -/
theorem witness_event_ids : (17#5).toNat < 18 ∧ 18 ≤ (18#5).toNat := by decide
/-- For `StepPerformsTheOldestIssuedOperation`: an operation, a reserved id, an empty queue, a table word. -/
theorem witness_step :
    (State.reset.withFetchWord 24 0x10010).env.inbox = .operation (.bus 0x10010#17) :: [] ∧
    decode (.bus 0x10010#17) = .ok (.wAudf1 0x10) ∧
    (State.reset.withFetchWord 8 0x12).env.inbox = .operation (.event 0x12#5) :: [] ∧
    decode (.event 0x12#5) = .error (.reservedEvent 18) ∧
    State.reset.env.inbox = [] ∧ decodeTableWord 24 0x10010 = some (.wAudf1 0x10) := by decide
/-- For `HostHooksSetOnlyTheirBits`. -/
theorem witness_hooks : (State.reset.setInbox [.setError 0b101]).env.inbox = .setError 0b101 :: [] ∧
    (State.reset.setInbox [.setKbcode 0x21]).env.inbox = .setKbcode 0x21 :: [] := by decide
/-- For `StepTakesOneItemAndKeepsTheConfiguration`. -/
theorem witness_step_next : step (State.reset.withFetchWord 24 0x10010) = .next (after (step (State.reset.withFetchWord 24 0x10010))) :=
  next_of_look (by decide)
/-- For `WhatTheHostWasToldStands`, `PendingBitsStandUntilAcknowledged`, `OnlyEnabledSourcesBecomePending`,
`ErrorBitsAreClearedOnlyBySkrest` and the first clause of `OnlyRenderMovesTimeAndIndices`: an expiry that raises. -/
theorem witness_exec_next :
    let s := { State.reset with now := 28, irqen := 0x05, irqst := 0x04, t1 := { period := some 28, deadline := some 28 } }
    exec .evT1 s = .next (after (exec .evT1 s)) ∧ (∀ v, Instr.evT1 ≠ .wIrqen v) ∧ (∀ v, Instr.evT1 ≠ .wSkrest v) ∧
    Instr.evT1 ≠ .reset ∧ (∀ n, Instr.evT1 ≠ .render n) :=
  ⟨next_of_look (by decide), by simp, by simp, by simp, by simp⟩
/-- For `EveryStepKeepsTheInvariant`. -/
theorem witness_step_invariant : (resetB.withFetchWord 24 0x10900).Inv ∧
    step (resetB.withFetchWord 24 0x10900) = .next (after (step (resetB.withFetchWord 24 0x10900))) :=
  ⟨inv_of_check (by decide), next_of_look (by decide)⟩
/-- For `EveryWellFormedOperationCompletes`, `RenderCompletesWithItsSamples`, `RenderSplitsAnywhere` and
`SilentChannelsContributeNothing`. -/
theorem witness_render : resetB.Inv ∧ (Instr.render 1).WellFormed ∧
    exec (.render 1) resetB = .next (after (exec (.render 1) resetB)) ∧ (resetB.ch .ch1).audc.toNat % 16 = 0 :=
  ⟨inv_of_check (by decide), by decide, next_of_look (by decide), by decide⟩
/-- For `BuildReturnsTheRecurrenceTable`: a table of each slice, a length without a table, a slice without one. -/
theorem witness_build : ((9, 2, 7, 0x80) : Nat × Nat × Nat × Nat) ∈ [(4, 3, 1, 0x4), (5, 3, 2, 0x8), (9, 2, 7, 0x80), (17, 7, 10, 0x18000)] ∧
    (Slice.random = .random → (9 = 9 ∨ 9 = 17)) ∧ 6 ∉ [4, 5, 9, 17] ∧ (Slice.random = .random ∧ 5 ∉ [9, 17]) := by decide
/-- For `LfsrSequencesHaveMaximalLength`: the longest table, its last index. -/
theorem witness_lfsr : (param17, 0x09224) ∈ [(param4, 0x8), (param5, 0x15), (param9, 0x12A), (param17, 0x09224)] ∧ 131069 < 131070 ∧ 131070 < 2 ^ param17.length - 1 := by
  decide
/-- For `RandomIndexMovesByElapsedTicks`, first clause: writes and two `RENDER`s between the reads. -/
theorem witness_random :
    let l : List Instr := [.wSkctl 0x00, .render 1, .wAudctl 0x80, .render 1, .wSkctl 0x01]
    let t := after (exec .rRandom resetB)
    let u := after (execAll l t)
    exec .rRandom resetB = .next t ∧ .rRandom ∉ l ∧ .reset ∉ l ∧ execAll l t = .next u ∧ u.skctl.toNat % 4 ≠ 0 ∧
    exec .rRandom u = .next (after (exec .rRandom u)) ∧ u.now - t.now = 2 :=
  ⟨next_of_look (by decide), by decide, by decide, next_of_look (by decide +kernel), by decide +kernel,
    next_of_look (by decide +kernel), by decide +kernel⟩
/-- For `RandomIndexMovesByElapsedTicks`, second clause. -/
theorem witness_random_frozen :
    let s := { State.reset with skctl := 0xFC, now := 7 }
    s.skctl.toNat % 4 = 0 ∧ exec .rRandom s = .next (after (exec .rRandom s)) :=
  ⟨by decide, next_of_look (by decide)⟩
/-- For the second clause of `OnlyRenderMovesTimeAndIndices` and of `AdvanceSplitsAndZeroIsIdentity`: each index the last
of its table, so that it wraps. -/
theorem witness_indices :
    let s := { resetB with p4 := 14, p5 := 30, p9 := 510, p17 := 131070 }
    (s.p4 < 15 ∧ s.p5 < 31 ∧ s.p9 < 511 ∧ s.p17 < 131071) ∧ exec (.render 1) s = .next (after (exec (.render 1) s)) :=
  ⟨by decide, next_of_look (by decide +kernel)⟩
/-- For the statements on bus writes, and `EventsNotDueChangeNothing`, `RenderSplitsAnywhere` (second clause): a settled state with
every deadline set, one tick ahead of `now`. -/
theorem witness_settled :
    State.Settled { State.reset with
      now := 9, serReady := some 10, serComplete := some 11, t1 := { period := some 28, deadline := some 10 }
      t2 := { period := some 28, deadline := some 10 }, t4 := { period := some 28, deadline := some 10 }
      pots := Vector.replicate 8 { target := some 1, deadline := some 10, latched := 0 } } := by decide
/-- For `ConfigurationIgnoresWriteOrder`: two orders of the same writes. -/
theorem witness_orders :
    let t := after (execAll [.wAudf1 0x10, .wAudctl 0x01] State.reset)
    let u := after (execAll [.wAudctl 0x01, .wAudf1 0x10] State.reset)
    State.reset.Inv ∧ execAll [.wAudf1 0x10, .wAudctl 0x01] State.reset = .next t ∧
    execAll [.wAudctl 0x01, .wAudf1 0x10] State.reset = .next u ∧ t.audctl = u.audctl ∧
    ∀ c, (t.ch c).audf = (u.ch c).audf ∧ (t.ch c).audc = (u.ch c).audc :=
  ⟨test_reset_inv, next_of_look (by decide), next_of_look (by decide), by decide +kernel,
    fun c => by cases c <;> decide +kernel⟩
/-- For `DivisorsStayInTheirRange`. -/
theorem witness_constants : let g := State.reset.cfg
    g.kLo = 1 ∧ g.kHi = 4 ∧ g.kHiJoined = 7 ∧ g.m64k = 28 ∧ g.m15k = 114 := by decide
/-- For `FilterLinkForcesTheFilteredChannelLow`: each pair with its link on and the partner HIGH. -/
theorem witness_filter :
    let s := { State.reset with audctl := 0x06, ch3 := { State.reset.ch3 with output := true, audc := 0x80 },
                                p17 := 6, ch4 := { State.reset.ch4 with audc := 0xA0 } }
    exec .evCh1 s = .next (after (exec .evCh1 s)) ∧ s.audctl.getLsbD 2 = true ∧ (after (exec .evCh1 s)).ch3.output = true ∧
    exec .evCh4 s = .next (after (exec .evCh4 s)) ∧ s.audctl.getLsbD 1 = true ∧ (after (exec .evCh4 s)).ch4.output = true :=
  ⟨next_of_look (by decide +kernel), by decide, by decide +kernel, next_of_look (by decide), by decide, by decide⟩
/-- For `PureToneTogglesOncePerDivisor`: the event falls on the last tick of the `RENDER`. -/
theorem witness_pure_tone :
    let s := { resetB with ch1 := { resetB.ch1 with audc := 0xA0, counter := .at 2 } }
    s.Inv ∧ s.cfg.optInaudible = false ∧ (s.ch .ch1).audc.getLsbD 7 = true ∧ (s.ch .ch1).audc.getLsbD 5 = true ∧
    s.audctl.getLsbD 2 = false ∧ (s.ch .ch1).counter = .at 2 ∧ (s.ch .ch1).divisor = .at 28 ∧
    exec (.render 2) s = .next (after (exec (.render 2) s)) ∧ (after (exec (.render 2) s)).now - s.now = 2 :=
  ⟨inv_of_check (by decide), by decide, by decide, by decide, by decide, by decide, by decide,
    next_of_look (by decide +kernel), by decide +kernel⟩
/-- For `SamplesFallOnTheFixedPointGrid`, both clauses. -/
theorem witness_grid : State.reset.Inv ∧ Config.standard.Valid ∧
    exec (.render 1) State.reset = .next (after (exec (.render 1) State.reset)) ∧
    State.reset = State.resetFor Config.standard HostSide.idle :=
  ⟨test_reset_inv, by decide, next_of_look (by decide +kernel), rfl⟩
/-- For `SettleLeavesNothingDue`: a timer and every paddle input due. -/
theorem witness_settle :
    let s := { potsDue with t1 := { period := some 28, deadline := some 50 } }
    (∀ k d, (s.timer k).deadline = some d → ∃ p, (s.timer k).period = some p ∧ s.now < d + p) ∧
    (∀ i d, (s.pot i).deadline = some d → (s.pot i).target.isSome = true) ∧ ¬ s.Settled := by
  refine ⟨fun k d h => ?_, fun i d _ => ?_, by decide⟩
  · cases k
    · exact ⟨28, rfl, by cases h; decide⟩
    · cases h
    · cases h
  · exact (by decide : ∀ i : Fin 8, (potsDue.pot i).target.isSome = true) i
/-- For `StimerRearmsAllTimers`: CH1 at the boundary of `TIMER_MIN`. -/
theorem witness_stimer :
    let s := { State.reset with audctl := 0x40, ch1 := { State.reset.ch1 with divisor := .at 4, counter := .at 4 } }
    s.Settled ∧ s.ch1.divisor = .at 4 ∧ s.ch2.divisor = .at 28 ∧ s.ch4.divisor = .at 28 := by decide
/-- For `DueTimerExpiryReschedulesAndRaises`: each timer due at `now`. -/
theorem witness_timers_due :
    let k : Timer := { period := some 28, deadline := some 50 }
    let s := { State.reset with now := 50, t1 := k, t2 := k, t4 := k }
    50 ≤ s.now ∧ s.t1 = { period := some 28, deadline := some 50 } ∧ s.t2 = { period := some 28, deadline := some 50 } ∧
    s.t4 = { period := some 28, deadline := some 50 } := by decide
/-- For `TimerExpiriesAreWholePeriods`: the deadline passes during the `RENDER`. -/
theorem witness_timer_periods :
    let s := { resetB with t1 := { period := some 5, deadline := some 1 } }
    s.Inv ∧ s.timer .t1 = { period := some 5, deadline := some 1 } ∧
    exec (.render 1) s = .next (after (exec (.render 1) s)) ∧ (after (exec (.render 1) s)).t1.deadline = some 6 :=
  ⟨inv_of_check (by decide), rfl, next_of_look (by decide), by decide⟩
/-- For `AcknowledgeContractClearsTheMask`: two bits pending. -/
theorem witness_acknowledge : ({ State.reset with irqen := 0x07, irqst := 0x05 } : State).Inv := inv_of_check (by decide)
/-- For `SeroutWriteStartsTransmission` and `PotgoStartsEightConversions`: a byte in flight, answers on each side of the
clamp, more than eight of them, some but fewer than eight, and none. -/
theorem witness_write_ports : ∀ l ∈ ([
    [none, some 0, some 1, some 228, some 229, some 300, none, some 5, some 7], [some 100, none, some 0], []] :
      List (List (Option Nat))),
    let s := { withPots l with serComplete := some 20, skstat := 0x02 }
    s.Settled ∧ s.cfg.Valid := by decide
/-- For `DueSerialEventsRaiseTheirInterrupts`. -/
theorem witness_serial_due :
    let s := { State.reset with now := 400, serReady := some 400, serComplete := some 400 }
    400 ≤ s.now ∧ s.serReady = some 400 ∧ s.serComplete = some 400 := by decide
/-- For `SerinReadTakesOneProviderByte`, `AllpotReadAsksTheOverride` (both answers) and `UnboundPortsAnswerTheirConstants`. -/
theorem witness_ports :
    ({ HostSide.idle with serialAnswers := [0x5A] } : HostSide).serialAnswers = 0x5A :: [] ∧
    ({ HostSide.idle with allpotAnswers := [some 0x12, none] } : HostSide).allpotAnswers = some 0x12 :: [none] ∧
    ({ HostSide.idle with allpotAnswers := [none] } : HostSide).allpotAnswers = none :: [] ∧
    State.reset.env.allpotAnswers = [] ∧ State.reset.env.serialAnswers = [] ∧ State.reset.env.potAnswers = [] := by decide
/-- For `TransmissionRaisesReadyThenComplete`: one sample every 3579 ticks, so that the `RENDER`s end on the complete event;
both enables and no timer armed, then one enable and a timer that expires on the complete tick. -/
theorem witness_transmission : ∀ s ∈ ([
      { quiet { Config.standard with sampleRate := 500 } with irqen := 0x18 },
      { quiet { Config.standard with sampleRate := 500 } with
        irqen := 0x09, t1 := { period := some 3579, deadline := some 3579 } }] : List State),
    let u := after (exec (.wSerout 0x41) s)
    let t := after (execAll ([0, 1].map .render) u)
    s.Inv ∧ exec (.wSerout 0x41) s = .next u ∧ execAll ([0, 1].map .render) u = .next t ∧
    s.now + s.cfg.tSerComplete ≤ t.now ∧ s.irqst.getLsbD 4 = false ∧ s.irqst.getLsbD 3 = false := by
  intro s hs
  simp only [List.mem_cons, List.not_mem_nil, or_false] at hs
  rcases hs with rfl | rfl
  · exact ⟨inv_of_check (by decide), next_of_look (by decide), next_of_look (by decide +kernel), by decide +kernel, by decide,
      by decide⟩
  · exact ⟨inv_of_check (by decide), next_of_look (by decide), next_of_look (by decide +kernel), by decide +kernel, by decide,
      by decide⟩
/-- For `DuePotCompletionLatchesTheTarget`. -/
theorem witness_pot_due : (Instr.evPot7, (7 : Fin 8)) ∈ ([(.evPot0, 0), (.evPot1, 1), (.evPot2, 2), (.evPot3, 3), (.evPot4, 4),
    (.evPot5, 5), (.evPot6, 6), (.evPot7, 7)] : List (Instr × Fin 8)) ∧ (potsDue.pot 7).deadline = some 50 ∧ 50 ≤ potsDue.now ∧
    (potsDue.pot 7).target = some 107 := by decide
/-- For `ConnectedPotsReachTheirTarget`: input 0 is running, input 1 has just reached its target 0. -/
theorem witness_connected :
    let s := after (exec (.wPotgo 0x00) (withPots [some 100, some 0]))
    s.Inv ∧ (s.pot 0).target = some 100 ∧ (s.pot 1).target = some 0 ∧ s.potStart + 0 * s.potUnit ≤ s.now :=
  ⟨inv_of_check (by decide), by decide, by decide, by decide⟩
/-- For `OffsetsWithoutARegisterDoNothing`: the last offset of a word, the first above the registers and the unmapped ones. -/
theorem witness_offsets : 0xFF < 256 ∧ decode (.bus (writeWord (BitVec.ofNat 8 0xFF) 0x55)) = .ok (.wOutOfRange 0xFF 0x55) ∧
    decode (.bus (readWord (BitVec.ofNat 8 0xF))) = .ok .rSkstat ∧ State.reset.Settled ∧ 0x10 > 0xF ∧ regWriteInstr 0xC 0x55 = .wUnmapped 0x55 ∧
    regWriteInstr 0x100 0x55 = .wOutOfRange 0xFF 0x55 ∧ regReadInstr 0xB = .rUnmappedB ∧ regReadInstr 0xC = .rUnmappedC := by
  decide
/-- For `ChipsAreIndependent`: of two chips the second is written and read; address 0x20 selects no chip. -/
theorem witness_chips :
    (∃ l, systemWrite defaultDecode 0x1F 0x07 [State.reset, resetB] = .next l) ∧
    (∃ l, systemRead defaultDecode 0x19 [State.reset, resetB] = .next l) ∧
    [State.reset, resetB][(defaultDecode 0x1F).1]? = some resetB ∧
    [State.reset, resetB].length ≤ (defaultDecode 0x20).1 :=
  ⟨⟨_, rfl⟩, ⟨_, rfl⟩, rfl, by decide⟩

end Sys2Proof.Tests
end

section
/-!
PROOFS. The scope of one chip (`00_scope.md`): what a step does with the host's queue, what every operation leaves alone, how
`RENDER` moves time and the gating indices, and what the ports answer that the platform lacks.
-/

namespace Sys2Proof.Machine

/-! ### The step and the queue of issued operations -/

/-- With nothing issued a step changes nothing (`60_exceptions.md` R244). -/
theorem step_of_idle {s : State} (h : s.env.inbox = []) : step s = .next s := by
  simp [step, h]

theorem step_of_operation {s : State} {r : Request} {rest : List HostItem} (h : s.env.inbox = .operation r :: rest) :
    step s = runRequest r (s.setInbox rest) := by
  simp [step, h]

theorem step_of_setError {s : State} {e : BitVec 3} {rest : List HostItem} (h : s.env.inbox = .setError e :: rest) :
    step s = .next (setError e (s.setInbox rest)) := by
  simp [step, h]

theorem step_of_setKbcode {s : State} {b : Byte} {rest : List HostItem} (h : s.env.inbox = .setKbcode b :: rest) :
    step s = .next (setKbcode b (s.setInbox rest)) := by
  simp [step, h]

theorem runRequest_of_ok {r : Request} {i : Instr} (h : decode r = .ok i) (s : State) : runRequest r s = exec i s := by
  simp [runRequest, h]

theorem runRequest_of_error {r : Request} {e : DecodeError} (h : decode r = .error e) (s : State) :
    runRequest r s = .refused (.undecodable e) := by
  simp [runRequest, h]

/-- A request that completes is an operation, performed by `exec`. -/
theorem exec_of_runRequest_next {r : Request} {s t : State} (h : runRequest r s = .next t) :
    ∃ i, decode r = .ok i ∧ exec i s = .next t := by
  cases hd : decode r with
  | ok i => exact ⟨i, rfl, runRequest_of_ok hd s ▸ h⟩
  | error e => simp [runRequest_of_error hd] at h

/-- All that a step can be: idle, an operation, or one of the two host hooks. -/
theorem step_cases {s t : State} (h : step s = .next t) :
    (s.env.inbox = [] ∧ t = s) ∨
    (∃ r rest i, s.env.inbox = .operation r :: rest ∧ decode r = .ok i ∧ exec i (s.setInbox rest) = .next t) ∨
    (∃ e rest, s.env.inbox = .setError e :: rest ∧ t = setError e (s.setInbox rest)) ∨
    (∃ b rest, s.env.inbox = .setKbcode b :: rest ∧ t = setKbcode b (s.setInbox rest)) := by
  cases hq : s.env.inbox with
  | nil =>
    rw [step_of_idle hq] at h
    exact .inl ⟨rfl, (Host.Outcome.next.inj h).symm⟩
  | cons item rest =>
    cases item with
    | operation r =>
      rw [step_of_operation hq] at h
      obtain ⟨i, hd, hx⟩ := exec_of_runRequest_next h
      exact .inr (.inl ⟨r, rest, i, rfl, hd, hx⟩)
    | setError e =>
      rw [step_of_setError hq] at h
      exact .inr (.inr (.inl ⟨e, rest, rfl, (Host.Outcome.next.inj h).symm⟩))
    | setKbcode b =>
      rw [step_of_setKbcode hq] at h
      exact .inr (.inr (.inr ⟨b, rest, rfl, (Host.Outcome.next.inj h).symm⟩))

@[simp] theorem State.setInbox_setInbox (s : State) (l m : List HostItem) : (s.setInbox l).setInbox m = s.setInbox m := rfl

@[simp] theorem State.setInbox_self (s : State) : s.setInbox s.env.inbox = s := rfl

/-- What the decoder reads from a table row's bits is what it decodes their request to. -/
theorem decodeTableWord_eq_some {nbits w : Nat} {i : Instr} :
    decodeTableWord nbits w = some i ↔ decode (requestOfBits nbits w) = .ok i := by
  unfold decodeTableWord
  cases decode (requestOfBits nbits w) <;> simp

/-- Settles O5. -/
theorem stepPerformsTheOldestIssuedOperation : Obligations.StepPerformsTheOldestIssuedOperation := by
  refine ⟨fun s r rest i hq hd => ?_, fun s r rest e hq hd => ?_, fun s => step_of_idle, fun s nbits w i hw => ?_⟩
  · rw [step_of_operation hq, runRequest_of_ok hd, State.setInbox]
  · rw [step_of_operation hq, runRequest_of_error hd]
  · have hq : (s.withFetchWord nbits w).env.inbox = .operation (requestOfBits nbits w) :: s.env.inbox := rfl
    rw [step_of_operation hq, runRequest_of_ok (decodeTableWord_eq_some.1 hw), State.withFetchWord,
      State.setInbox_setInbox, State.setInbox_self]

/-! ### Reset -/

theorem execReset_of_valid {s : State} (h : s.cfg.Valid) : execReset s = .next (State.resetFor s.cfg s.env) := if_pos h

theorem execReset_of_not_valid {s : State} (h : ¬ s.cfg.Valid) : execReset s = .refused .invalidConfiguration := if_neg h

/-- Settles O10. -/
theorem resetRefusesAnInvalidConfiguration : Obligations.ResetRefusesAnInvalidConfiguration :=
  fun _ h => execReset_of_not_valid h

/-! ### What every operation but RENDER and RESET leaves alone -/

/-- The configuration, the host's queue, the time and the gating indices are the same in both states. -/
structure Untimed (s t : State) : Prop where
  cfg : t.cfg = s.cfg
  inbox : t.env.inbox = s.env.inbox
  now : t.now = s.now
  p4 : t.p4 = s.p4
  p5 : t.p5 = s.p5
  p9 : t.p9 = s.p9
  p17 : t.p17 = s.p17

theorem Untimed.refl (s : State) : Untimed s s := ⟨rfl, rfl, rfl, rfl, rfl, rfl, rfl⟩

theorem Untimed.trans {s t u : State} (h : Untimed s t) (h' : Untimed t u) : Untimed s u :=
  ⟨h'.cfg.trans h.cfg, h'.inbox.trans h.inbox, h'.now.trans h.now, h'.p4.trans h.p4, h'.p5.trans h.p5,
    h'.p9.trans h.p9, h'.p17.trans h.p17⟩

theorem Untimed.foldl {α : Type} {f : State → α → State} (keep : ∀ s a, Untimed s (f s a)) (l : List α) (s : State) :
    Untimed s (l.foldl f s) := by
  induction l generalizing s with
  | nil => exact .refl s
  | cons a l ih => exact (keep s a).trans (ih (f s a))

theorem emit_untimed (e : HostEvent) (s : State) : Untimed s (emit e s) := ⟨rfl, rfl, rfl, rfl, rfl, rfl, rfl⟩

theorem setCh_untimed (s : State) (c : Ch) (k : Channel) : Untimed s (s.setCh c k) := by
  constructor <;> simp

theorem settle_untimed (s : State) : Untimed s (settle s) := by
  obtain ⟨d1, d2, d4, r, c, k, q, a, p, l, h⟩ := settle_frame s
  rw [h]
  exact ⟨rfl, rfl, rfl, rfl, rfl, rfl, rfl⟩

theorem configure_untimed (c : Ch) (s : State) : Untimed s (configure c s) := by
  obtain ⟨n, o, v, a, h⟩ := configure_frame c s
  exact h ▸ setCh_untimed s c _

theorem channelEvent_untimed (c : Ch) (s : State) : Untimed s (channelEvent c s) := by
  obtain ⟨n1, n2, n3, n4, o1, o2, o3, o4, h⟩ := channelEvent_frame c s
  rw [h]
  exact ⟨rfl, rfl, rfl, rfl, rfl, rfl, rfl⟩

theorem timerExpiry_untimed (k : TimerId) (s : State) : Untimed s (timerExpiry k s) := by
  obtain ⟨d, q, l, h⟩ := timerExpiry_frame k s
  rw [h]
  constructor <;> simp

theorem serialReady_untimed (s : State) : Untimed s (serialReady s) := by
  obtain ⟨d, q, l, h⟩ := serialReady_frame s
  rw [h]
  exact ⟨rfl, rfl, rfl, rfl, rfl, rfl, rfl⟩

theorem serialComplete_untimed (s : State) : Untimed s (serialComplete s) := by
  obtain ⟨d, k, q, l, h⟩ := serialComplete_frame s
  rw [h]
  exact ⟨rfl, rfl, rfl, rfl, rfl, rfl, rfl⟩

theorem potComplete_untimed (i : Fin 8) (s : State) : Untimed s (potComplete i s) := by
  obtain ⟨a, p, h⟩ := potComplete_frame i s
  rw [h]
  exact ⟨rfl, rfl, rfl, rfl, rfl, rfl, rfl⟩

theorem potgo_untimed (s : State) : Untimed s (potgo s) := by
  obtain ⟨p, l, h⟩ := potgo_frame s
  rw [h]
  exact ⟨rfl, rfl, rfl, rfl, rfl, rfl, rfl⟩

theorem sampleEvent_untimed (s : State) : Untimed s (sampleEvent s) := ⟨rfl, rfl, rfl, rfl, rfl, rfl, rfl⟩

theorem writeSerout_untimed (v : Byte) (s : State) : Untimed s (writeSerout v s) := ⟨rfl, rfl, rfl, rfl, rfl, rfl, rfl⟩

theorem rearmAll_untimed (s : State) : Untimed s (rearmAll s) := ⟨rfl, rfl, rfl, rfl, rfl, rfl, rfl⟩

theorem acknowledgeEnable_untimed (v : Byte) (s : State) : Untimed s (acknowledgeEnable v s) :=
  ⟨rfl, rfl, rfl, rfl, rfl, rfl, rfl⟩

theorem setAudf_untimed (c : Ch) (v : Byte) (s : State) : Untimed s (setAudf c v s) := setCh_untimed s c _

theorem setAudc_untimed (c : Ch) (v : Byte) (s : State) : Untimed s (setAudc c v s) := setCh_untimed s c _

theorem randomAdvance_untimed (s : State) : Untimed s (randomAdvance s) := by
  unfold randomAdvance
  split <;> exact ⟨rfl, rfl, rfl, rfl, rfl, rfl, rfl⟩

theorem askAllpot_untimed (s : State) : Untimed s (askAllpot s).2 := by
  unfold askAllpot
  split <;> exact ⟨rfl, rfl, rfl, rfl, rfl, rfl, rfl⟩

theorem askSerial_untimed (s : State) : Untimed s (askSerial s).2 := by
  unfold askSerial
  split <;> exact ⟨rfl, rfl, rfl, rfl, rfl, rfl, rfl⟩

/-- A bus write whose operation leaves time and the queue alone does so with its closing `Settle`. -/
theorem Untimed.of_regWriteWith {op : State → State} {s t : State} (keep : Untimed s (op s))
    (h : Host.Outcome.next (φ := Fault) (ρ := Refusal) (regWriteWith op s) = .next t) : Untimed s t :=
  Host.Outcome.next.inj h ▸ keep.trans (settle_untimed _)

/-- A bus read whose effect leaves time and the queue alone does so when it tells the host its byte. -/
theorem Untimed.of_returnByte {b : Byte} {s u t : State} (keep : Untimed s u)
    (h : Host.Outcome.next (φ := Fault) (ρ := Refusal) (returnByte b u) = .next t) : Untimed s t :=
  Host.Outcome.next.inj h ▸ keep.trans (emit_untimed _ u)

/-- The AUDF writes of CH1 and CH3: the channel is reconfigured, and the joined partner where the pair is joined. -/
theorem configureJoined_untimed (c d : Ch) (v : Byte) (joined : Byte → Bool) (s : State) :
    Untimed s (let t := configure c (setAudf c v s); if joined t.audctl then configure d t else t) := by
  have own := (setAudf_untimed c v s).trans (configure_untimed c _)
  simp only
  split
  · exact own.trans (configure_untimed d _)
  · exact own

theorem execBuild_untimed {n : Nat} {slice : Slice} {s t : State} (h : execBuild n slice s = .next t) : Untimed s t := by
  unfold execBuild at h
  split at h
  · exact Host.Outcome.next.inj h ▸ emit_untimed _ s
  · cases h

/-- Every operation but `RENDER` and `RESET` leaves the configuration, the host's queue, the time and the gating indices
alone (`00_scope.md` R5, R8, `10_state.md` R11). -/
theorem exec_untimed {i : Instr} {s t : State} (hreset : i ≠ .reset) (hrender : ∀ n, i ≠ .render n)
    (h : exec i s = .next t) : Untimed s t := by
  cases i with
  | wAudf1 v => exact .of_regWriteWith (configureJoined_untimed .ch1 .ch2 v audctlJoin12 s) h
  | wAudf3 v => exact .of_regWriteWith (configureJoined_untimed .ch3 .ch4 v audctlJoin34 s) h
  | wAudf2 v | wAudf4 v => exact .of_regWriteWith ((setAudf_untimed _ v s).trans (configure_untimed _ _)) h
  | wAudc1 v | wAudc2 v | wAudc3 v | wAudc4 v =>
    exact .of_regWriteWith ((setAudc_untimed _ v s).trans (configure_untimed _ _)) h
  | wAudctl v =>
    have store : Untimed s { s with audctl := v } := ⟨rfl, rfl, rfl, rfl, rfl, rfl, rfl⟩
    exact .of_regWriteWith (store.trans (.foldl (fun s c => configure_untimed c s) channelOrder _)) h
  | wStimer v => exact .of_regWriteWith (rearmAll_untimed s) h
  | wPotgo v => exact .of_regWriteWith (potgo_untimed s) h
  | wSerout v => exact .of_regWriteWith (writeSerout_untimed v s) h
  | wIrqen v => exact .of_regWriteWith (acknowledgeEnable_untimed v s) h
  | wSkrest v | wSkctl v => exact .of_regWriteWith ⟨rfl, rfl, rfl, rfl, rfl, rfl, rfl⟩ h
  | wUnmapped v | wOutOfRange off v => exact .of_regWriteWith (.refl s) h
  | rPot0 | rPot1 | rPot2 | rPot3 | rPot4 | rPot5 | rPot6 | rPot7 | rKbcode | rUnmappedB | rUnmappedC | rIrqst | rSkstat
  | rOutOfRange off => exact .of_returnByte (.refl s) h
  | rAllpot => exact .of_returnByte (askAllpot_untimed s) h
  | rRandom => exact .of_returnByte (randomAdvance_untimed s) h
  | rSerin =>
    have store (u : State) (b : Byte) : Untimed u { u with serin := b } := ⟨rfl, rfl, rfl, rfl, rfl, rfl, rfl⟩
    exact .of_returnByte ((askSerial_untimed s).trans (store _ _)) h
  | evCh1 | evCh2 | evCh3 | evCh4 => exact Host.Outcome.next.inj h ▸ channelEvent_untimed _ s
  | evSample => exact Host.Outcome.next.inj h ▸ sampleEvent_untimed s
  | evT1 | evT2 | evT4 => exact Host.Outcome.next.inj h ▸ timerExpiry_untimed _ s
  | evSerReady => exact Host.Outcome.next.inj h ▸ serialReady_untimed s
  | evSerComplete => exact Host.Outcome.next.inj h ▸ serialComplete_untimed s
  | evPot0 | evPot1 | evPot2 | evPot3 | evPot4 | evPot5 | evPot6 | evPot7 =>
    exact Host.Outcome.next.inj h ▸ potComplete_untimed _ s
  | render n => exact absurd rfl (hrender n)
  | build n slice => exact execBuild_untimed h
  | reset => exact absurd rfl hreset

/-! ### The queue and the configuration over every step -/

theorem SameSettings.inbox {s t : State} (h : SameSettings s t) : t.env.inbox = s.env.inbox := by
  obtain ⟨l, hl⟩ := h.env
  rw [hl]

/-- A `RENDER` that completes is its loop, closed by `Settle`. -/
theorem exec_render_next {n : Nat} {s t : State} (h : exec (.render n) s = .next t) :
    ∃ u, renderLoop (renderFuel n s) n s = some u ∧ t = settle u := by
  obtain ⟨u, hu, ht⟩ | ⟨-, hf⟩ := execRender_cases n s _ h
  · exact ⟨u, hu, Host.Outcome.next.inj ht⟩
  · cases hf

/-- `RENDER` leaves the settings. -/
theorem exec_render_settings {n : Nat} {s t : State} (h : exec (.render n) s = .next t) : SameSettings s t := by
  obtain ⟨u, hu, ht⟩ := exec_render_next h
  have loop : SameSettings s u :=
    renderLoop_keeps (fun v hv => hv.trans (schedStep_settings v)) _ _ s u (.refl s) hu
  rw [ht]
  exact loop.trans (settle_settings u)

/-- A `RESET` that completes gives the reset state of the held configuration, which is valid. -/
theorem exec_reset_next {s t : State} (h : exec .reset s = .next t) : s.cfg.Valid ∧ t = State.resetFor s.cfg s.env := by
  by_cases hv : s.cfg.Valid
  · exact ⟨hv, Host.Outcome.next.inj (h.symm.trans (execReset_of_valid hv))⟩
  · cases h.symm.trans (execReset_of_not_valid hv)

/-- No operation writes the configuration or the host's queue (`00_scope.md` R5, R8). -/
theorem exec_inbox_cfg {i : Instr} {s t : State} (h : exec i s = .next t) :
    t.env.inbox = s.env.inbox ∧ t.cfg = s.cfg := by
  by_cases hreset : i = .reset
  · subst hreset
    obtain ⟨-, rfl⟩ := exec_reset_next h
    exact ⟨rfl, rfl⟩
  · by_cases hrender : ∃ n, i = .render n
    · obtain ⟨n, rfl⟩ := hrender
      have same := exec_render_settings h
      exact ⟨same.inbox, same.cfg⟩
    · have same := exec_untimed hreset (fun n e => hrender ⟨n, e⟩) h
      exact ⟨same.inbox, same.cfg⟩

/-- Settles O7, by the cases of a step: the item taken is the head of the queue, and performing it leaves the rest. -/
theorem stepTakesOneItemAndKeepsTheConfiguration : Obligations.StepTakesOneItemAndKeepsTheConfiguration := by
  intro s t h
  obtain ⟨hq, rfl⟩ | ⟨r, rest, i, hq, -, hx⟩ | ⟨e, rest, hq, rfl⟩ | ⟨b, rest, hq, rfl⟩ := step_cases h
  · exact ⟨by rw [hq, List.tail_nil], rfl⟩
  · rw [hq]
    exact exec_inbox_cfg hx
  · rw [hq]
    exact ⟨rfl, rfl⟩
  · rw [hq]
    exact ⟨rfl, rfl⟩

/-! ### Time and the gating indices in RENDER -/

/-- From `s` to `t` time has moved by `e` ticks, and each gating index with it (`40_polynomial.md` R85). -/
structure TimeMovedBy (e : Nat) (s t : State) : Prop where
  now : t.now = s.now + e
  p4 : t.p4 = (s.p4 + e) % polyLen 4
  p5 : t.p5 = (s.p5 + e) % polyLen 5
  p9 : t.p9 = (s.p9 + e) % polyLen 9
  p17 : t.p17 = (s.p17 + e) % polyLen 17

/-- No ticks move nothing where each index is below its table length. -/
theorem TimeMovedBy.zero {s : State} (h4 : s.p4 < polyLen 4) (h5 : s.p5 < polyLen 5) (h9 : s.p9 < polyLen 9)
    (h17 : s.p17 < polyLen 17) : TimeMovedBy 0 s s :=
  ⟨rfl, (Nat.mod_eq_of_lt h4).symm, (Nat.mod_eq_of_lt h5).symm, (Nat.mod_eq_of_lt h9).symm, (Nat.mod_eq_of_lt h17).symm⟩

theorem TimeMovedBy.trans {d e : Nat} {s t u : State} (h : TimeMovedBy d s t) (h' : TimeMovedBy e t u) :
    TimeMovedBy (d + e) s u where
  now := by rw [h'.now, h.now, Nat.add_assoc]
  p4 := by rw [h'.p4, h.p4, Nat.mod_add_mod, Nat.add_assoc]
  p5 := by rw [h'.p5, h.p5, Nat.mod_add_mod, Nat.add_assoc]
  p9 := by rw [h'.p9, h.p9, Nat.mod_add_mod, Nat.add_assoc]
  p17 := by rw [h'.p17, h.p17, Nat.mod_add_mod, Nat.add_assoc]

theorem TimeMovedBy.trans_untimed {e : Nat} {s t u : State} (h : TimeMovedBy e s t) (h' : Untimed t u) :
    TimeMovedBy e s u :=
  ⟨h'.now.trans h.now, h'.p4.trans h.p4, h'.p5.trans h.p5, h'.p9.trans h.p9, h'.p17.trans h.p17⟩

theorem advance_timeMoved (e : Nat) (s : State) : TimeMovedBy e s (advance e s) := ⟨rfl, rfl, rfl, rfl, rfl⟩

/-- A scheduler step moves time by the distance to the nearest candidate. -/
theorem schedStep_timeMoved (s : State) : TimeMovedBy (minSelect s) s (schedStep s) := by
  obtain ⟨hnow, h4, h5, h9, h17⟩ := processTick_time (advance (minSelect s) s)
  have moved := advance_timeMoved (minSelect s) s
  exact ⟨hnow.trans moved.now, h4.trans moved.p4, h5.trans moved.p5, h9.trans moved.p9, h17.trans moved.p17⟩

/-- `RENDER` moves time by some number of ticks, and the gating indices by the same. -/
theorem exec_render_timeMoved {n : Nat} {s t : State} (start : TimeMovedBy 0 s s) (h : exec (.render n) s = .next t) :
    ∃ e, TimeMovedBy e s t := by
  obtain ⟨u, hu, ht⟩ := exec_render_next h
  have keep (v : State) : (∃ e, TimeMovedBy e s v) → ∃ e, TimeMovedBy e s (schedStep v) :=
    fun ⟨e, he⟩ => ⟨e + minSelect v, he.trans (schedStep_timeMoved v)⟩
  obtain ⟨e, he⟩ := renderLoop_keeps keep _ _ s u ⟨0, start⟩ hu
  rw [ht]
  exact ⟨e, he.trans_untimed (settle_untimed u)⟩

/-- Settles O18: by `exec_untimed`, and by the law of `RENDER`'s loop. -/
theorem onlyRenderMovesTimeAndIndices : Obligations.OnlyRenderMovesTimeAndIndices := by
  refine ⟨fun i s t hreset hrender h => ?_, fun n s t h4 h5 h9 h17 h => ?_⟩
  · have same := exec_untimed hreset hrender h
    exact ⟨same.now, same.p4, same.p5, same.p9, same.p17⟩
  · obtain ⟨e, moved⟩ := exec_render_timeMoved (.zero h4 h5 h9 h17) h
    have elapsed : t.now - s.now = e := by rw [moved.now, Nat.add_sub_cancel_left]
    rw [elapsed]
    exact ⟨moved.now ▸ Nat.le_add_right _ e, moved.p4, moved.p5, moved.p9, moved.p17⟩

/-! ### Ports without an answer left -/

theorem emit_eq_told (e : HostEvent) (s : State) : emit e s = Reference.told s e := rfl

theorem askPot_of_no_answers {s : State} (h : s.env.potAnswers = []) : askPot s = (none, s) := by
  simp [askPot, h]

theorem askAllpot_of_no_answers {s : State} (h : s.env.allpotAnswers = []) : askAllpot s = (none, s) := by
  simp [askAllpot, h]

theorem askSerial_of_no_answers {s : State} (h : s.env.serialAnswers = []) : askSerial s = (s.env.serialFixed, s) := by
  simp [askSerial, h]

/-- A slot whose input is found absent: unconnected, nothing pending, the latched value kept (`45_paddle.md` R191). -/
def PotSlot.unconnected (p : PotSlot) : PotSlot := { p with target := none, deadline := none }

theorem askStartPot_of_no_answers {s : State} (h : s.env.potAnswers = []) (i : Fin 8) :
    askStartPot s i = s.setPot i (s.pot i).unconnected := by
  rw [askStartPot, askPot_of_no_answers h]
  rfl

/-- `potgo`'s loop with no answers left changes only the slots, and leaves each of its inputs unconnected. -/
theorem foldl_askStartPot_of_no_answers (l : List (Fin 8)) {s : State} (h : s.env.potAnswers = []) :
    ∃ p, l.foldl askStartPot s = { s with pots := p } ∧
      ∀ i, ({ s with pots := p } : State).pot i = if i ∈ l then (s.pot i).unconnected else s.pot i := by
  induction l generalizing s with
  | nil => exact ⟨s.pots, rfl, fun i => by simp⟩
  | cons j l ih =>
    rw [List.foldl_cons, askStartPot_of_no_answers h]
    obtain ⟨p, hp, hslots⟩ := ih (s := s.setPot j (s.pot j).unconnected) h
    refine ⟨p, hp, fun i => (hslots i).trans ?_⟩
    by_cases hij : i = j
    · subst hij
      simp [PotSlot.unconnected]
    · simp [State.setPot_pot_ne _ _ hij, hij]

theorem mem_potInputs (i : Fin 8) : i ∈ potInputs := by
  fin_cases i <;> simp [potInputs]

/-- `potgo` with no answers left: every input converting and unconnected. -/
theorem potgo_of_no_answers {s : State} (h : s.env.potAnswers = []) :
    ∃ p, potgo s = { s with
        potUnit := if skctlFastPaddle s.skctl then s.cfg.potUnitFast else s.cfg.potUnitSlow
        potStart := s.now, allpot := 0xFF#8, pots := p } ∧
      ∀ i, (potgo s).pot i = (s.pot i).unconnected := by
  obtain ⟨p, hp, hslots⟩ := foldl_askStartPot_of_no_answers potInputs (s := { s with
    potUnit := if skctlFastPaddle s.skctl then s.cfg.potUnitFast else s.cfg.potUnitSlow
    potStart := s.now
    allpot := 0xFF#8 }) h
  refine ⟨p, hp, fun i => ?_⟩
  rw [potgo, hp, hslots i, if_pos (mem_potInputs i)]
  rfl

/-- A state is settled when each of its deadlines lies ahead; the converse is `State.Settled.ahead`. -/
theorem State.settled_of_ahead {s : State} (ht : ∀ k d, (s.timer k).deadline = some d → s.now < d)
    (hr : ∀ d, s.serReady = some d → s.now < d) (hc : ∀ d, s.serComplete = some d → s.now < d)
    (hp : ∀ i d, (s.pot i).deadline = some d → s.now < d) : s.Settled := by
  intro d hd
  obtain hd | hd := List.mem_append.1 hd
  · obtain h | h | h | h | h : s.t1.deadline = some d ∨ s.t2.deadline = some d ∨ s.t4.deadline = some d ∨
        s.serReady = some d ∨ s.serComplete = some d := by
      simpa [eq_comm] using hd
    · exact ht .t1 d h
    · exact ht .t2 d h
    · exact ht .t4 d h
    · exact hr d h
    · exact hc d h
  · obtain ⟨i, -, hi⟩ := List.mem_filterMap.1 hd
    exact hp i d hi

/-- `potgo` with no answers left sets no deadline, so a settled state stays settled. -/
theorem potgo_settled_of_no_answers {s : State} (hs : s.Settled) (h : s.env.potAnswers = []) : (potgo s).Settled := by
  obtain ⟨ht, hr, hc, -⟩ := hs.ahead
  obtain ⟨p, hp, hslots⟩ := potgo_of_no_answers h
  refine State.settled_of_ahead ?_ ?_ ?_ fun i d hd => ?_
  · rw [hp]
    exact fun k => by cases k with
      | t1 => exact ht .t1
      | t2 => exact ht .t2
      | t4 => exact ht .t4
  · rwa [hp]
  · rwa [hp]
  · rw [hslots i] at hd
    cases hd

/-- Settles O60, port by port. -/
theorem unboundPortsAnswerTheirConstants : Obligations.UnboundPortsAnswerTheirConstants := by
  refine fun s v => ⟨fun h => ?_, fun h => ?_, fun hs h => ⟨potgo s, ?_, ?_, ?_⟩⟩
  · simp only [exec, execRAllpot, askAllpot_of_no_answers h, Option.getD_none, returnByte, emit_eq_told]
  · simp only [exec, execRSerin, askSerial_of_no_answers h, returnByte, emit_eq_told]
  · simp only [exec, execWPotgo, regWriteWith, settle_of_settled (potgo_settled_of_no_answers hs h)]
  · obtain ⟨p, hp, -⟩ := potgo_of_no_answers h
    rw [hp]
    rfl
  · obtain ⟨p, -, hslots⟩ := potgo_of_no_answers h
    exact hslots

end Sys2Proof.Machine
end

section
/-!
PROOFS. The bus of the host (`20_memory.md`): what a read, a write and every other operation tell the host, the operations
behind the offsets, the system of several chips, and the eight conversions that `W_POTGO` starts.
-/

namespace Sys2Proof.Machine

/-! ### What the host was told before stands -/

theorem SameSettings.told {s t : State} (h : SameSettings s t) : s.env.trace <:+ t.env.trace := by
  obtain ⟨l, hl⟩ := h.env
  rw [hl]
  exact List.suffix_append l _

theorem emit_told (e : HostEvent) (s : State) : s.env.trace <:+ (emit e s).env.trace := List.suffix_cons _ _

/-- Operations that leave the host's side alone tell it nothing. -/
theorem told_of_env_eq {s t : State} (h : t.env = s.env) : s.env.trace <:+ t.env.trace := h ▸ List.suffix_rfl

theorem settle_told (s : State) : s.env.trace <:+ (settle s).env.trace := (settle_settings s).told

@[simp] theorem configure_env (c : Ch) (s : State) : (configure c s).env = s.env := by
  obtain ⟨n, o, v, a, h⟩ := configure_frame c s
  rw [h, State.setCh_env]

@[simp] theorem setAudf_env (c : Ch) (v : Byte) (s : State) : (setAudf c v s).env = s.env := State.setCh_env s c _

@[simp] theorem setAudc_env (c : Ch) (v : Byte) (s : State) : (setAudc c v s).env = s.env := State.setCh_env s c _

/-- Reconfiguring channels tells the host nothing. -/
theorem foldl_configure_env (l : List Ch) (s : State) : (l.foldl (fun s c => configure c s) s).env = s.env := by
  induction l generalizing s with
  | nil => rfl
  | cons c l ih => rw [List.foldl_cons, ih, configure_env]

/-- The AUDF writes of CH1 and CH3, with the joined partner or without it. -/
theorem configureJoined_env (c d : Ch) (v : Byte) (joined : Byte → Bool) (s : State) :
    (let t := configure c (setAudf c v s); if joined t.audctl then configure d t else t).env = s.env := by
  simp only
  split <;> simp

@[simp] theorem channelEvent_env (c : Ch) (s : State) : (channelEvent c s).env = s.env := by
  obtain ⟨n1, n2, n3, n4, o1, o2, o3, o4, h⟩ := channelEvent_frame c s
  rw [h]

@[simp] theorem potComplete_env (i : Fin 8) (s : State) : (potComplete i s).env = s.env := by
  obtain ⟨a, p, h⟩ := potComplete_frame i s
  rw [h]

@[simp] theorem randomAdvance_env (s : State) : (randomAdvance s).env = s.env := by
  unfold randomAdvance
  split <;> rfl

theorem askAllpot_trace (s : State) : (askAllpot s).2.env.trace = s.env.trace := by
  unfold askAllpot
  split <;> rfl

theorem askSerial_trace (s : State) : (askSerial s).2.env.trace = s.env.trace := by
  unfold askSerial
  split <;> rfl

theorem potgo_trace (s : State) : (potgo s).env.trace = s.env.trace := by
  obtain ⟨p, l, h⟩ := potgo_frame s
  rw [h]

theorem timerExpiry_told (k : TimerId) (s : State) : s.env.trace <:+ (timerExpiry k s).env.trace := by
  obtain ⟨d, q, l, h⟩ := timerExpiry_frame k s
  rw [h]
  exact List.suffix_append l _

theorem serialReady_told (s : State) : s.env.trace <:+ (serialReady s).env.trace := by
  obtain ⟨d, q, l, h⟩ := serialReady_frame s
  rw [h]
  exact List.suffix_append l _

theorem serialComplete_told (s : State) : s.env.trace <:+ (serialComplete s).env.trace := by
  obtain ⟨d, k, q, l, h⟩ := serialComplete_frame s
  rw [h]
  exact List.suffix_append l _

/-! ### Bus reads and bus writes -/

/-- The operations of a bus read (`20_memory.md` R42). -/
def isBusRead : Instr → Bool
  | .rPot0 | .rPot1 | .rPot2 | .rPot3 | .rPot4 | .rPot5 | .rPot6 | .rPot7 | .rAllpot | .rKbcode | .rRandom | .rUnmappedB
  | .rUnmappedC | .rSerin | .rIrqst | .rSkstat | .rOutOfRange _ => true
  | _ => false

/-- The operations of a bus write (`20_memory.md` R41). -/
def isBusWrite : Instr → Bool
  | .wAudf1 _ | .wAudc1 _ | .wAudf2 _ | .wAudc2 _ | .wAudf3 _ | .wAudc3 _ | .wAudf4 _ | .wAudc4 _ | .wAudctl _ | .wStimer _
  | .wSkrest _ | .wPotgo _ | .wUnmapped _ | .wSerout _ | .wIrqen _ | .wSkctl _ | .wOutOfRange _ _ => true
  | _ => false

theorem decodeRead_isBusRead (off : Byte) : isBusRead (decodeRead off) = true := by
  unfold decodeRead
  split <;> rfl

theorem decodeWrite_isBusWrite (off v : Byte) : isBusWrite (decodeWrite off v) = true := by
  unfold decodeWrite
  split <;> rfl

/-- A bus read completes: it returns one byte, and before that it told the host nothing (`20_memory.md` R44). -/
theorem exec_of_isBusRead {i : Instr} (hi : isBusRead i = true) (s : State) :
    ∃ b u, exec i s = .next (returnByte b u) ∧ u.now = s.now ∧ u.env.trace = s.env.trace := by
  cases i with
  | rPot0 | rPot1 | rPot2 | rPot3 | rPot4 | rPot5 | rPot6 | rPot7 | rKbcode | rUnmappedB | rUnmappedC | rIrqst | rSkstat
  | rOutOfRange off => exact ⟨_, s, rfl, rfl, rfl⟩
  | rAllpot => exact ⟨_, _, rfl, (askAllpot_untimed s).now, askAllpot_trace s⟩
  | rRandom => exact ⟨_, _, rfl, (randomAdvance_untimed s).now, by rw [randomAdvance_env]⟩
  | rSerin => exact ⟨_, _, rfl, (askSerial_untimed s).now, askSerial_trace s⟩
  | _ => cases hi

/-- A bus write completes: it performs its effect, which may tell the host something, and then `Settle`
(`20_memory.md` R43). -/
theorem exec_of_isBusWrite {i : Instr} (hi : isBusWrite i = true) (s : State) :
    ∃ u, exec i s = .next (settle u) ∧ s.env.trace <:+ u.env.trace := by
  cases i with
  | wAudf1 v => exact ⟨_, rfl, told_of_env_eq (configureJoined_env .ch1 .ch2 v audctlJoin12 s)⟩
  | wAudf3 v => exact ⟨_, rfl, told_of_env_eq (configureJoined_env .ch3 .ch4 v audctlJoin34 s)⟩
  | wAudf2 v | wAudf4 v | wAudc1 v | wAudc2 v | wAudc3 v | wAudc4 v => exact ⟨_, rfl, told_of_env_eq (by simp)⟩
  | wAudctl v => exact ⟨_, rfl, told_of_env_eq (foldl_configure_env channelOrder { s with audctl := v })⟩
  | wPotgo v => exact ⟨_, rfl, by rw [potgo_trace]⟩
  | wSerout v => exact ⟨_, rfl, emit_told (.serialOut v) s⟩
  | wStimer v | wSkrest v | wUnmapped v | wIrqen v | wSkctl v | wOutOfRange off v => exact ⟨_, rfl, List.suffix_rfl⟩
  | _ => cases hi

theorem told_of_isBusRead {i : Instr} (hi : isBusRead i = true) {s t : State} (h : exec i s = .next t) :
    s.env.trace <:+ t.env.trace := by
  obtain ⟨b, u, hu, -, htrace⟩ := exec_of_isBusRead hi s
  obtain rfl := Host.Outcome.next.inj (hu.symm.trans h)
  exact htrace ▸ emit_told _ u

theorem told_of_isBusWrite {i : Instr} (hi : isBusWrite i = true) {s t : State} (h : exec i s = .next t) :
    s.env.trace <:+ t.env.trace := by
  obtain ⟨u, hu, htold⟩ := exec_of_isBusWrite hi s
  obtain rfl := Host.Outcome.next.inj (hu.symm.trans h)
  exact htold.trans (settle_told u)

theorem execBuild_told {n : Nat} {slice : Slice} {s t : State} (h : execBuild n slice s = .next t) :
    s.env.trace <:+ t.env.trace := by
  unfold execBuild at h
  split at h
  · exact Host.Outcome.next.inj h ▸ emit_told _ s
  · cases h

/-- What the host was told before an operation stands after it. -/
theorem exec_told {i : Instr} {s t : State} (h : exec i s = .next t) : s.env.trace <:+ t.env.trace := by
  cases i with
  | wAudf1 v | wAudc1 v | wAudf2 v | wAudc2 v | wAudf3 v | wAudc3 v | wAudf4 v | wAudc4 v | wAudctl v | wStimer v
  | wSkrest v | wPotgo v | wUnmapped v | wSerout v | wIrqen v | wSkctl v | wOutOfRange off v => exact told_of_isBusWrite rfl h
  | rPot0 | rPot1 | rPot2 | rPot3 | rPot4 | rPot5 | rPot6 | rPot7 | rAllpot | rKbcode | rRandom | rUnmappedB | rUnmappedC
  | rSerin | rIrqst | rSkstat | rOutOfRange off => exact told_of_isBusRead rfl h
  | evCh1 | evCh2 | evCh3 | evCh4 => exact Host.Outcome.next.inj h ▸ told_of_env_eq (channelEvent_env _ s)
  | evSample => exact Host.Outcome.next.inj h ▸ (sampleEvent_settings s).told
  | evT1 | evT2 | evT4 => exact Host.Outcome.next.inj h ▸ timerExpiry_told _ s
  | evSerReady => exact Host.Outcome.next.inj h ▸ serialReady_told s
  | evSerComplete => exact Host.Outcome.next.inj h ▸ serialComplete_told s
  | evPot0 | evPot1 | evPot2 | evPot3 | evPot4 | evPot5 | evPot6 | evPot7 =>
    exact Host.Outcome.next.inj h ▸ told_of_env_eq (potComplete_env _ s)
  | render n => exact (exec_render_settings h).told
  | build n slice => exact execBuild_told h
  | reset =>
    obtain ⟨-, rfl⟩ := exec_reset_next h
    exact List.suffix_rfl

/-- Settles O8, by the cases of the operation. -/
theorem whatTheHostWasToldStands : Obligations.WhatTheHostWasToldStands := by
  intro i s t h
  obtain ⟨l, hl⟩ := exec_told h
  exact ⟨l, hl.symm⟩

/-! ### The operation of an offset -/

@[simp] theorem wordIsWrite_writeWord (off v : Byte) : wordIsWrite (writeWord off v) = true := by
  have hv := v.isLt
  have hoff := off.isLt
  rw [wordIsWrite, BitVec.getLsbD, Laws.MatchesRow.writeWord_toNat, Nat.testBit_eq_decide_div_mod_eq, decide_eq_true_iff]
  omega

@[simp] theorem wordIsWrite_readWord (off : Byte) : wordIsWrite (readWord off) = false := by
  have hoff := off.isLt
  rw [wordIsWrite, BitVec.getLsbD, Laws.MatchesRow.readWord_toNat, Nat.testBit_eq_decide_div_mod_eq,
    decide_eq_false_iff_not]
  omega

@[simp] theorem wordOffset_writeWord (off v : Byte) : wordOffset (writeWord off v) = off := by
  have hv := v.isLt
  have hoff := off.isLt
  apply BitVec.eq_of_toNat_eq
  rw [wordOffset, BitVec.extractLsb'_toNat, Laws.MatchesRow.writeWord_toNat, Nat.shiftRight_eq_div_pow]
  omega

@[simp] theorem wordOffset_readWord (off : Byte) : wordOffset (readWord off) = off := by
  have hoff := off.isLt
  apply BitVec.eq_of_toNat_eq
  rw [wordOffset, BitVec.extractLsb'_toNat, Laws.MatchesRow.readWord_toNat, Nat.shiftRight_eq_div_pow]
  omega

@[simp] theorem wordData_writeWord (off v : Byte) : wordData (writeWord off v) = v := by
  have hv := v.isLt
  apply BitVec.eq_of_toNat_eq
  rw [wordData, BitVec.extractLsb'_toNat, Laws.MatchesRow.writeWord_toNat, Nat.shiftRight_zero]
  omega

theorem decode_writeWord (off v : Byte) : decode (.bus (writeWord off v)) = .ok (decodeWrite off v) := by
  simp [decode, decodeBus]

theorem decode_readWord (off : Byte) : decode (.bus (readWord off)) = .ok (decodeRead off) := by
  simp [decode, decodeBus]

theorem decodeWrite_of_no_register {off : Byte} (h : 0xF < off.toNat) (v : Byte) : decodeWrite off v = .wOutOfRange off v := by
  unfold decodeWrite
  split
  case h_17 => rfl
  all_goals omega

theorem decodeRead_of_no_register {off : Byte} (h : 0xF < off.toNat) : decodeRead off = .rOutOfRange off := by
  unfold decodeRead
  split
  case h_17 => rfl
  all_goals omega

/-- Above the registers a write is the out-of-range one, whether the offset has a word or not. -/
theorem regWriteInstr_of_no_register {off : Nat} (h : 0xF < off) (v : Byte) :
    ∃ o, regWriteInstr off v = .wOutOfRange o v := by
  unfold regWriteInstr
  split
  · next hoff => exact ⟨_, decodeWrite_of_no_register (by rwa [BitVec.toNat_ofNat, Nat.mod_eq_of_lt hoff]) v⟩
  · exact ⟨_, rfl⟩

theorem regReadInstr_of_no_register {off : Nat} (h : 0xF < off) : ∃ o, regReadInstr off = .rOutOfRange o := by
  unfold regReadInstr
  split
  · next hoff => exact ⟨_, decodeRead_of_no_register (by rwa [BitVec.toNat_ofNat, Nat.mod_eq_of_lt hoff])⟩
  · exact ⟨_, rfl⟩

/-- The writes without a register are only their closing `Settle`. -/
theorem exec_wOutOfRange_of_settled {s : State} (h : s.Settled) (off v : Byte) : exec (.wOutOfRange off v) s = .next s := by
  rw [exec, execWOutOfRange, regWriteWith, id_eq, settle_of_settled h]

theorem exec_wUnmapped_of_settled {s : State} (h : s.Settled) (v : Byte) : exec (.wUnmapped v) s = .next s := by
  rw [exec, execWUnmapped, regWriteWith, id_eq, settle_of_settled h]

theorem regWrite_of_no_register {s : State} (hs : s.Settled) {off : Nat} (h : off > 0xF ∨ off = 0xC) (v : Byte) :
    regWrite off v s = .next s := by
  obtain h | rfl := h
  · obtain ⟨o, ho⟩ := regWriteInstr_of_no_register h v
    rw [regWrite, ho, exec_wOutOfRange_of_settled hs]
  · exact exec_wUnmapped_of_settled hs v

theorem regRead_of_no_register (s : State) {off : Nat} (h : off > 0xF ∨ off = 0xB ∨ off = 0xC) :
    regRead off s = .next (Reference.told s (.readReturned 0x00#8)) := by
  obtain h | rfl | rfl := h
  · obtain ⟨o, ho⟩ := regReadInstr_of_no_register h
    rw [regRead, ho]
    rfl
  · rfl
  · rfl

/-- Settles O58: the word of an offset decodes to the operation of that offset, and the operations without a register only
settle or return 0x00. -/
theorem offsetsWithoutARegisterDoNothing : Obligations.OffsetsWithoutARegisterDoNothing := by
  refine fun s off v => ⟨fun hoff i hi => ?_, fun hoff i hi => ?_, fun hs h => regWrite_of_no_register hs h v,
    regRead_of_no_register s⟩
  · obtain rfl := Except.ok.inj ((decode_writeWord _ v).symm.trans hi)
    rw [regWrite, regWriteInstr, if_pos hoff]
  · obtain rfl := Except.ok.inj ((decode_readWord _).symm.trans hi)
    rw [regRead, regReadInstr, if_pos hoff]

/-! ### The system of several chips -/

theorem regWriteInstr_isBusWrite (off : Nat) (v : Byte) : isBusWrite (regWriteInstr off v) = true := by
  unfold regWriteInstr
  split
  · exact decodeWrite_isBusWrite _ v
  · rfl

theorem regReadInstr_isBusRead (off : Nat) : isBusRead (regReadInstr off) = true := by
  unfold regReadInstr
  split
  · exact decodeRead_isBusRead _
  · rfl

theorem regWrite_completes (off : Nat) (v : Byte) (s : State) : ∃ t, regWrite off v s = .next t := by
  obtain ⟨u, hu, -⟩ := exec_of_isBusWrite (regWriteInstr_isBusWrite off v) s
  exact ⟨_, hu⟩

/-- A read by offset completes, and the byte it returns is all that it tells the host. -/
theorem regRead_returns (off : Nat) (s : State) : ∃ t b, regRead off s = .next t ∧
    t.env.trace = { tick := s.now, event := .readReturned b } :: s.env.trace := by
  obtain ⟨b, u, hu, hnow, htrace⟩ := exec_of_isBusRead (regReadInstr_isBusRead off) s
  exact ⟨_, b, hu, by rw [returnByte, emit_trace, hnow, htrace]⟩

section
variable {dec : Nat → Nat × Nat} {a : Nat} {chips : List State}

theorem systemWrite_of_no_chip (v : Byte) (h : chips[(dec a).1]? = none) : systemWrite dec a v chips = .next chips := by
  simp [systemWrite, onChip, h]

theorem systemRead_of_no_chip (h : chips[(dec a).1]? = none) : systemRead dec a chips = .next (0x00#8, chips) := by
  simp [systemRead, h]

theorem systemWrite_of_chip {v : Byte} {s t : State} (h : chips[(dec a).1]? = some s)
    (hw : regWrite (dec a).2 v s = .next t) : systemWrite dec a v chips = .next (chips.set (dec a).1 t) := by
  rw [regWrite] at hw
  simp [systemWrite, onChip, h, hw]

theorem systemRead_of_chip {s t : State} {b : Byte} {n : Nat} {l : List Logged} (h : chips[(dec a).1]? = some s)
    (hr : regRead (dec a).2 s = .next t) (htrace : t.env.trace = { tick := n, event := .readReturned b } :: l) :
    systemRead dec a chips = .next (b, chips.set (dec a).1 t) := by
  simp [systemRead, h, hr, htrace]

/-- A write leaves the list of chips, or replaces the selected one. -/
theorem systemWrite_cases {v : Byte} {chips' : List State} (h : systemWrite dec a v chips = .next chips') :
    chips' = chips ∨ ∃ t, chips' = chips.set (dec a).1 t := by
  cases hc : chips[(dec a).1]? with
  | none => exact .inl (Host.Outcome.next.inj (h.symm.trans (systemWrite_of_no_chip v hc)))
  | some s =>
    obtain ⟨t, ht⟩ := regWrite_completes (dec a).2 v s
    exact .inr ⟨t, Host.Outcome.next.inj (h.symm.trans (systemWrite_of_chip hc ht))⟩

/-- A read leaves the list of chips, or replaces the selected one. -/
theorem systemRead_cases {b : Byte} {chips' : List State} (h : systemRead dec a chips = .next (b, chips')) :
    chips' = chips ∨ ∃ t, chips' = chips.set (dec a).1 t := by
  cases hc : chips[(dec a).1]? with
  | none => exact .inl (congrArg Prod.snd (Host.Outcome.next.inj (h.symm.trans (systemRead_of_no_chip hc))))
  | some s =>
    obtain ⟨t, b', ht, htrace⟩ := regRead_returns (dec a).2 s
    exact .inr ⟨t, congrArg Prod.snd (Host.Outcome.next.inj (h.symm.trans (systemRead_of_chip hc ht htrace)))⟩

end

/-- What is the list itself, or the list with chip `k` replaced, holds the same other chips. -/
theorem other_chips_stay {k : Nat} {chips chips' : List State} (h : chips' = chips ∨ ∃ t, chips' = chips.set k t) :
    chips'.length = chips.length ∧ ∀ j, j ≠ k → chips'[j]? = chips[j]? := by
  obtain rfl | ⟨t, rfl⟩ := h
  · exact ⟨rfl, fun _ _ => rfl⟩
  · exact ⟨List.length_set, fun j hj => List.getElem?_set_ne hj.symm⟩

theorem defaultDecode_eq (a : Nat) : defaultDecode a = (a >>> 4, a &&& 0xF) := by
  rw [defaultDecode, Nat.shiftRight_eq_div_pow, Nat.and_two_pow_sub_one_eq_mod a 4]

/-- Settles O59: an access either finds no chip, or completes on the selected one and replaces it in the list. -/
theorem chipsAreIndependent : Obligations.ChipsAreIndependent := by
  refine ⟨defaultDecode_eq, fun dec a v chips => ⟨fun hlen => ?_, fun s hs => ⟨?_, ?_⟩,
    fun chips' h => other_chips_stay (systemWrite_cases h), fun b chips' h => other_chips_stay (systemRead_cases h)⟩⟩
  · have hc : chips[(dec a).1]? = none := List.getElem?_eq_none hlen
    exact ⟨systemWrite_of_no_chip v hc, systemRead_of_no_chip hc⟩
  · obtain ⟨t, ht⟩ := regWrite_completes (dec a).2 v s
    exact ⟨t, ht, systemWrite_of_chip hs ht⟩
  · obtain ⟨t, b, ht, htrace⟩ := regRead_returns (dec a).2 s
    exact ⟨t, b, ht, htrace, systemRead_of_chip hs ht htrace⟩

end Sys2Proof.Machine
end

section
/-!
PROOFS. `W_POTGO` (`45_paddle.md` R191): what its loop gives each input, and what the closing `Settle` makes of it.
-/

namespace Sys2Proof.Machine

/-! ### Asking the eight inputs -/

/-- A slot after `potgo` asked for its input at tick `now` and got the answer `a` (`45_paddle.md` R191). -/
def PotSlot.started (now unit : Nat) (a : Option Nat) (p : PotSlot) : PotSlot :=
  match a with
  | none => p.unconnected
  | some v => { p with target := some (min v potMax), deadline := some (now + min v potMax * unit) }

theorem startPot_eq (i : Fin 8) (a : Option Nat) (s : State) :
    startPot i a s = s.setPot i ((s.pot i).started s.now s.potUnit a) := by
  cases a <;> rfl

/-- The port gives the first answer left, or absent where none is left. -/
theorem askPot_eq (s : State) :
    askPot s = (s.env.potAnswers.head?.join, { s with env := { s.env with potAnswers := s.env.potAnswers.tail } }) := by
  cases h : s.env.potAnswers with
  | nil => rw [askPot_of_no_answers h, List.head?_nil, Option.join_none, List.tail_nil, ← h]
  | cons a rest => simp [askPot, h]

/-- One turn of `potgo`'s loop starts its input with the answer. -/
theorem askStartPot_eq (s : State) (i : Fin 8) :
    askStartPot s i = { s.setPot i ((s.pot i).started s.now s.potUnit s.env.potAnswers.head?.join) with
      env := { s.env with potAnswers := s.env.potAnswers.tail } } := by
  rw [askStartPot, askPot_eq, startPot_eq]
  rfl

theorem askStartPot_pot_ne (s : State) {i j : Fin 8} (h : j ≠ i) : (askStartPot s i).pot j = s.pot j := by
  rw [askStartPot_eq]
  exact State.setPot_pot_ne s _ h

theorem askStartPot_pot (s : State) (i : Fin 8) :
    (askStartPot s i).pot i = (s.pot i).started s.now s.potUnit s.env.potAnswers.head?.join := by
  rw [askStartPot_eq]
  exact State.setPot_pot s i _

theorem foldl_askStartPot_eq (l : List (Fin 8)) (s : State) :
    ∃ p, l.foldl askStartPot s =
      { s with pots := p, env := { s.env with potAnswers := s.env.potAnswers.drop l.length } } := by
  induction l generalizing s with
  | nil => exact ⟨s.pots, rfl⟩
  | cons j l ih =>
    obtain ⟨p, hp⟩ := ih (askStartPot s j)
    refine ⟨p, ?_⟩
    rw [List.foldl_cons, hp, askStartPot_eq, List.length_cons, ← List.drop_tail]
    rfl

theorem foldl_askStartPot_pot_of_not_mem {l : List (Fin 8)} {i : Fin 8} (h : i ∉ l) (s : State) :
    (l.foldl askStartPot s).pot i = s.pot i := by
  induction l generalizing s with
  | nil => rfl
  | cons j l ih =>
    obtain ⟨hij, hl⟩ := List.ne_and_not_mem_of_not_mem_cons h
    rw [List.foldl_cons, ih hl, askStartPot_pot_ne s hij]

/-- `potgo`'s loop over distinct inputs starts each of them with the answer at its place. -/
theorem foldl_askStartPot_pot {l : List (Fin 8)} (hl : l.Nodup) {i : Fin 8} (hi : i ∈ l) (s : State) :
    (l.foldl askStartPot s).pot i = (s.pot i).started s.now s.potUnit (s.env.potAnswers[l.idxOf i]?).join := by
  induction l generalizing s with
  | nil => cases hi
  | cons j l ih =>
    obtain ⟨hj, hl⟩ := List.nodup_cons.1 hl
    rw [List.foldl_cons]
    by_cases hij : i = j
    · subst hij
      rw [foldl_askStartPot_pot_of_not_mem hj, askStartPot_pot, List.idxOf_cons_self, List.head?_eq_getElem?]
    · rw [ih hl (List.mem_of_ne_of_mem hij hi), askStartPot_pot_ne s hij, List.idxOf_cons_ne l (Ne.symm hij),
        askStartPot_eq, ← List.getElem?_tail]
      rfl

/-- The ticks of one unit of the target under the paddle mode that SKCTL selects (`45_paddle.md` R191). -/
def selectedPotUnit (s : State) : Nat := if skctlFastPaddle s.skctl then s.cfg.potUnitFast else s.cfg.potUnitSlow

theorem selectedPotUnit_pos {s : State} (h : s.cfg.Valid) : 0 < selectedPotUnit s := by
  obtain ⟨-, -, -, -, -, hfast, -, hslow, -⟩ := h
  unfold selectedPotUnit
  split
  · exact hfast
  · exact hslow

/-- What `potgo` changes beside the slots: every input is converting, and eight answers are taken. -/
theorem potgo_eq (s : State) :
    ∃ p, potgo s = { s with
      potUnit := selectedPotUnit s, potStart := s.now, allpot := 0xFF#8, pots := p
      env := { s.env with potAnswers := s.env.potAnswers.drop 8 } } :=
  foldl_askStartPot_eq potInputs _

theorem potgo_pot (s : State) (i : Fin 8) :
    (potgo s).pot i = (s.pot i).started s.now (selectedPotUnit s) (s.env.potAnswers[i.val]?).join := by
  have place : potInputs.idxOf i = i.val := by decide +revert
  rw [potgo, foldl_askStartPot_pot (by decide) (mem_potInputs i), place]
  rfl

/-! ### Completing the inputs that are due -/

/-- `Settle` runs only the paddles where no timer and no serial deadline is due. -/
theorem settle_of_timers_and_serial_ahead {s : State} (ht : ∀ k d, (s.timer k).deadline = some d → s.now < d)
    (hr : ∀ d, s.serReady = some d → s.now < d) (hc : ∀ d, s.serComplete = some d → s.now < d) :
    settle s = potInputs.foldl (fun s i => potComplete i s) s := by
  rw [settle, timerExpiry_of_not_due .t1 s (ht .t1), timerExpiry_of_not_due .t2 s (ht .t2),
    timerExpiry_of_not_due .t4 s (ht .t4), serialReady_of_not_due s hr, serialComplete_of_not_due s hc]

/-- What the chip holds of one paddle input: its ALLPOT bit and its slot. -/
def potBitAndSlot (s : State) (i : Fin 8) : Bool × PotSlot := (converting s i, s.pot i)

/-- An input after its completion, which does nothing before the deadline (`45_paddle.md` R195). -/
def completedIfDue (now : Nat) (x : Bool × PotSlot) : Bool × PotSlot :=
  match x.2.deadline, x.2.target with
  | some d, some t => if d ≤ now then (false, { target := some t, deadline := none, latched := BitVec.ofNat 8 t }) else x
  | _, _ => x

theorem completedIfDue_of_due {now d t : Nat} {x : Bool × PotSlot} (hd : x.2.deadline = some d) (ht : x.2.target = some t)
    (h : d ≤ now) : completedIfDue now x = (false, { target := some t, deadline := none, latched := BitVec.ofNat 8 t }) := by
  simp [completedIfDue, hd, ht, h]

/-- Without a target or with its deadline ahead an input stays as it is. -/
theorem completedIfDue_of_not_due {now : Nat} {x : Bool × PotSlot}
    (h : ∀ d t, x.2.deadline = some d → x.2.target = some t → now < d) : completedIfDue now x = x := by
  unfold completedIfDue
  split
  · next hd ht => rw [if_neg (Nat.not_le.2 (h _ _ hd ht))]
  · rfl

theorem completedIfDue_cases (now : Nat) (x : Bool × PotSlot) :
    completedIfDue now x = x ∨ (completedIfDue now x).2.deadline = none := by
  unfold completedIfDue
  split
  · split
    · exact .inr rfl
    · exact .inl rfl
  · exact .inl rfl

/-- A completed input has no deadline left, so completing it again does nothing. -/
theorem completedIfDue_idem (now : Nat) (x : Bool × PotSlot) :
    completedIfDue now (completedIfDue now x) = completedIfDue now x := by
  obtain same | done := completedIfDue_cases now x
  · rw [same, same]
  · exact completedIfDue_of_not_due fun d _ hd _ => nomatch done.symm.trans hd

@[simp] theorem potBit_getElem (i j : Fin 8) : (potBit j)[i.val] = decide (i = j) := by decide +revert

/-- Without a target or with its deadline ahead an input is not completed. -/
theorem potComplete_of_no_completion {i : Fin 8} {s : State}
    (h : ∀ d t, (s.pot i).deadline = some d → (s.pot i).target = some t → s.now < d) : potComplete i s = s := by
  unfold potComplete
  split
  · next hd ht => rw [if_neg (Nat.not_le.2 (h _ _ hd ht))]
  · rfl

/-- Completing input `j` acts on that input alone. -/
theorem potBitAndSlot_potComplete (i j : Fin 8) (s : State) :
    potBitAndSlot (potComplete j s) i = if i = j then completedIfDue s.now (potBitAndSlot s i) else potBitAndSlot s i := by
  by_cases hdue : ∃ d t, (s.pot j).deadline = some d ∧ (s.pot j).target = some t ∧ d ≤ s.now
  · obtain ⟨d, t, hd, ht, hle⟩ := hdue
    rw [potComplete_of_due j s d t hd ht hle]
    by_cases hij : i = j
    · subst hij
      rw [if_pos rfl, completedIfDue_of_due (x := potBitAndSlot s i) hd ht hle]
      exact Prod.ext (by simp [potBitAndSlot, converting]) (State.setPot_pot s i _)
    · rw [if_neg hij]
      exact Prod.ext (by simp [potBitAndSlot, converting, hij]) (State.setPot_pot_ne s _ hij)
  · have ahead (d t : Nat) (hd : (s.pot j).deadline = some d) (ht : (s.pot j).target = some t) : s.now < d :=
      Nat.not_le.1 fun hle => hdue ⟨d, t, hd, ht, hle⟩
    rw [potComplete_of_no_completion ahead]
    by_cases hij : i = j
    · subst hij
      rw [if_pos rfl, completedIfDue_of_not_due (x := potBitAndSlot s i) ahead]
    · rw [if_neg hij]

/-- The paddle part of `Settle` completes each of its inputs that is due. -/
theorem potBitAndSlot_foldl_potComplete (l : List (Fin 8)) (s : State) (i : Fin 8) :
    potBitAndSlot (l.foldl (fun s j => potComplete j s) s) i =
      if i ∈ l then completedIfDue s.now (potBitAndSlot s i) else potBitAndSlot s i := by
  induction l generalizing s with
  | nil => simp
  | cons j l ih =>
    rw [List.foldl_cons, ih, (potComplete_untimed j s).now, potBitAndSlot_potComplete]
    by_cases hij : i = j
    · simp [hij, completedIfDue_idem]
    · simp [hij]

/-! ### The operation -/

theorem settle_potgo {s : State} (hs : s.Settled) :
    settle (potgo s) = potInputs.foldl (fun s i => potComplete i s) (potgo s) := by
  obtain ⟨ht, hr, hc, -⟩ := hs.ahead
  obtain ⟨p, hp⟩ := potgo_eq s
  apply settle_of_timers_and_serial_ahead
  · rw [hp]
    exact fun k => by cases k with
      | t1 => exact ht .t1
      | t2 => exact ht .t2
      | t4 => exact ht .t4
  · rwa [hp]
  · rwa [hp]

/-- `W_POTGO` in a settled state changes no more than its own fields, the slots, ALLPOT and the answers. -/
theorem settle_potgo_frame {s : State} (hs : s.Settled) :
    ∃ a p, settle (potgo s) = { s with
      potUnit := selectedPotUnit s, potStart := s.now, allpot := a, pots := p
      env := { s.env with potAnswers := s.env.potAnswers.drop 8 } } := by
  obtain ⟨p, hp⟩ := potgo_eq s
  obtain ⟨a, q, h⟩ := settlePots_frame potInputs (potgo s)
  exact ⟨a, q, by rw [settle_potgo hs, h, hp]⟩

theorem potgo_converting (s : State) (i : Fin 8) : converting (potgo s) i = true := by
  obtain ⟨p, hp⟩ := potgo_eq s
  rw [hp]
  have all : ∀ i : Fin 8, (0xFF#8).getLsbD i.val = true := by decide
  exact all i

/-- After `W_POTGO` each input is started with its answer, and completed if that makes it due at once. -/
theorem potBitAndSlot_settle_potgo {s : State} (hs : s.Settled) (i : Fin 8) :
    potBitAndSlot (settle (potgo s)) i = completedIfDue s.now
      (true, (s.pot i).started s.now (selectedPotUnit s) (s.env.potAnswers[i.val]?).join) := by
  rw [settle_potgo hs, potBitAndSlot_foldl_potComplete, if_pos (mem_potInputs i), (potgo_untimed s).now, potBitAndSlot,
    potgo_converting, potgo_pot]

/-- Settles O51: absent, an answer due at once, and a scheduled one are the cases of a started input. -/
theorem potgoStartsEightConversions : Obligations.PotgoStartsEightConversions := by
  intro s v hs hvalid a unit
  refine ⟨settle (potgo s), rfl, ?_, fun i => ?_⟩
  · obtain ⟨c, p, h⟩ := settle_potgo_frame hs
    rw [h]
    rfl
  · have input := potBitAndSlot_settle_potgo hs i
    have hunit : 0 < unit := selectedPotUnit_pos hvalid
    change _ = completedIfDue s.now (true, (s.pot i).started s.now unit (a i)) at input
    split
    · next h =>
      rw [h, completedIfDue_of_not_due fun d _ hd _ => (Option.some_ne_none d hd.symm).elim] at input
      exact Prod.mk.inj input
    · next h =>
      rw [h, completedIfDue_of_due (d := s.now + 0 * unit) rfl rfl (by omega)] at input
      exact Prod.mk.inj input
    · next x h =>
      have ahead : s.now < s.now + min (x + 1) 228 * unit :=
        Nat.lt_add_of_pos_right (Nat.mul_pos (by omega) hunit)
      rw [h, completedIfDue_of_not_due fun _ _ hd _ => Option.some.inj hd ▸ ahead] at input
      exact Prod.mk.inj input

end Sys2Proof.Machine
end

section
/-!
PROOFS. The encoding (`30_encoding.md`): the fields of a transaction word, the round trips between operations and requests,
the tables that `BUILD` returns, and the `acknowledge` contract.
-/

namespace Sys2Proof.Machine

/-! ### The fields of a transaction word -/

theorem wordIsWrite_eq (w : BusWord) : wordIsWrite w = decide (w.toNat / 65536 % 2 = 1) :=
  Nat.testBit_eq_decide_div_mod_eq

theorem wordOffset_toNat (w : BusWord) : (wordOffset w).toNat = w.toNat / 256 % 256 := by
  rw [wordOffset, BitVec.extractLsb'_toNat, Nat.shiftRight_eq_div_pow]

theorem wordData_toNat (w : BusWord) : (wordData w).toNat = w.toNat % 256 := by
  rw [wordData, BitVec.extractLsb'_toNat, Nat.shiftRight_zero]

/-- A write has no bits beside its `W`, `OFF` and `DATA`. -/
theorem writeWord_of_wordIsWrite {w : BusWord} (h : wordIsWrite w = true) :
    writeWord (wordOffset w) (wordData w) = w := by
  have hw := w.isLt
  rw [wordIsWrite_eq, decide_eq_true_iff] at h
  apply BitVec.eq_of_toNat_eq
  rw [Laws.MatchesRow.writeWord_toNat, wordOffset_toNat, wordData_toNat]
  omega

/-- The mask 0x1FF00 selects `W` and `OFF`. -/
theorem and_mask_eq_iff (v w : BusWord) :
    v &&& 0x1FF00#17 = w &&& 0x1FF00#17 ↔ wordIsWrite v = wordIsWrite w ∧ wordOffset v = wordOffset w := by
  have hv := v.isLt
  have hw := w.isLt
  have hmask : (0x1FF00#17).toNat = 0x1FF00 := rfl
  rw [← BitVec.toNat_inj, BitVec.toNat_and, BitVec.toNat_and, hmask, Laws.MatchesRow.and_row_mask _ hv,
    Laws.MatchesRow.and_row_mask _ hw, wordIsWrite_eq, wordIsWrite_eq, decide_eq_decide, ← BitVec.toNat_inj,
    wordOffset_toNat, wordOffset_toNat]
  omega

/-! ### Decoding what was encoded -/

/-- Settles O1: a bus operation goes through its word's `W`, `OFF` and `DATA`; only the default arms and `BUILD` need to be
well-formed. -/
theorem decodingAnEncodedInstructionGivesItBack : Obligations.DecodingAnEncodedInstructionGivesItBack := by
  intro i wf
  cases i with
  | wOutOfRange off v =>
    have hoff : 16 ≤ off.toNat := of_decide_eq_true wf
    rw [encode, decode_writeWord, decodeWrite_of_no_register hoff]
  | rOutOfRange off =>
    have hoff : 16 ≤ off.toNat := of_decide_eq_true wf
    rw [encode, decode_readWord, decodeRead_of_no_register hoff]
  | build n slice => exact if_pos wf
  | wAudf1 v | wAudc1 v | wAudf2 v | wAudc2 v | wAudf3 v | wAudc3 v | wAudf4 v | wAudc4 v | wAudctl v | wStimer v
  | wSkrest v | wPotgo v | wUnmapped v | wSerout v | wIrqen v | wSkctl v => exact decode_writeWord _ v
  | rPot0 | rPot1 | rPot2 | rPot3 | rPot4 | rPot5 | rPot6 | rPot7 | rAllpot | rKbcode | rRandom | rUnmappedB | rUnmappedC
  | rSerin | rIrqst | rSkstat => exact decode_readWord _
  | evCh1 | evCh2 | evCh3 | evCh4 | evSample | evT1 | evT2 | evT4 | evSerReady | evSerComplete | evPot0 | evPot1 | evPot2
  | evPot3 | evPot4 | evPot5 | evPot6 | evPot7 | render _ | reset => rfl

/-! ### Encoding what was decoded -/

/-- A write at any offset is a well-formed operation that keeps the offset and the data. -/
theorem decodeWrite_wellFormed_encode (off v : Byte) :
    (decodeWrite off v).WellFormed ∧ encode (decodeWrite off v) = .bus (writeWord off v) := by
  unfold decodeWrite
  split
  case h_17 =>
    refine ⟨decide_eq_true ?_, rfl⟩
    simp only [imp_false] at *
    omega
  all_goals
    next h =>
      refine ⟨rfl, congrArg Request.bus (congrFun (congrArg writeWord ?_) v)⟩
      exact BitVec.eq_of_toNat_eq h.symm

/-- A read at any offset is a well-formed operation that keeps the offset. -/
theorem decodeRead_wellFormed_encode (off : Byte) :
    (decodeRead off).WellFormed ∧ encode (decodeRead off) = .bus (readWord off) := by
  unfold decodeRead
  split
  case h_17 =>
    refine ⟨decide_eq_true ?_, rfl⟩
    simp only [imp_false] at *
    omega
  all_goals
    next h => exact ⟨rfl, congrArg Request.bus (congrArg readWord (BitVec.eq_of_toNat_eq h.symm))⟩

theorem decodeBus_of_write {w : BusWord} (h : wordIsWrite w = true) :
    decodeBus w = decodeWrite (wordOffset w) (wordData w) := if_pos h

theorem decodeBus_of_read {w : BusWord} (h : wordIsWrite w = false) : decodeBus w = decodeRead (wordOffset w) := by
  simp [decodeBus, h]

/-- Settles O2: a write is encoded as the same word, and a read, which its offset alone selects, as the word of its offset. -/
theorem everyTransactionWordIsAnOperation : Obligations.EveryTransactionWordIsAnOperation := by
  refine fun w => ⟨?_, fun v hw hmask => ?_⟩
  · cases h : wordIsWrite w with
    | true =>
      obtain ⟨wf, henc⟩ := decodeWrite_wellFormed_encode (wordOffset w) (wordData w)
      rw [writeWord_of_wordIsWrite h, ← decodeBus_of_write h] at henc
      rw [← decodeBus_of_write h] at wf
      exact ⟨_, w, rfl, wf, henc, rfl, fun _ => rfl⟩
    | false =>
      obtain ⟨wf, henc⟩ := decodeRead_wellFormed_encode (wordOffset w)
      rw [← decodeBus_of_read h] at wf henc
      exact ⟨_, readWord (wordOffset w), rfl, wf, henc,
        (and_mask_eq_iff _ w).2 ⟨(wordIsWrite_readWord _).trans h.symm, wordOffset_readWord _⟩,
        fun hw => nomatch h.symm.trans hw⟩
  · obtain ⟨hwrite, hoff⟩ := (and_mask_eq_iff v w).1 hmask
    rw [decode, decode, decodeBus_of_read hw, decodeBus_of_read (hwrite.trans hw), hoff]

/-! ### Event ids -/

theorem decodeEvent_of_event {id : EventId} (h : id.toNat < 18) :
    ∃ i, decodeEvent id = .ok i ∧ encode i = .event id := by
  unfold decodeEvent
  split
  case h_19 =>
    simp only [imp_false] at *
    omega
  all_goals
    next hid => exact ⟨_, rfl, congrArg Request.event (BitVec.eq_of_toNat_eq hid.symm)⟩

theorem decodeEvent_of_reserved {id : EventId} (h : 18 ≤ id.toNat) :
    decodeEvent id = .error (.reservedEvent id.toNat) := by
  unfold decodeEvent
  split
  case h_19 => rfl
  all_goals omega

/-- Settles O3: the ids below 18 and those from 18 on are the two outcomes of the decoder. -/
theorem eventIdsDecodeOrAreReserved : Obligations.EventIdsDecodeOrAreReserved :=
  fun _ => ⟨decodeEvent_of_event, decodeEvent_of_reserved⟩

/-- Settles O4, by running the decoder on the listed words. -/
theorem writtenOutWordsDecode : Obligations.WrittenOutWordsDecode := by
  unfold Obligations.WrittenOutWordsDecode
  decide

/-! ### The tables of `BUILD` -/

/-- The loop of `BUILD` stores the slices of the successive states of the recurrence. -/
theorem buildFrom_lfsrState (p : PolyParam) (slice : Nat → Nat) (k j : Nat) :
    buildFrom p slice k (lfsrState p j) = (List.range' j k).map (fun i => slice (lfsrState p i)) := by
  induction k generalizing j with
  | zero => rfl
  | succ k ih => rw [buildFrom, ← lfsrState, ih, List.range'_succ, List.map_cons]

theorem buildTable_eq (p : PolyParam) (slice : Nat → Nat) :
    buildTable p slice = (List.range (polyLen p.length)).map (fun i => slice (lfsrState p i)) := by
  rw [List.range_eq_range']
  exact buildFrom_lfsrState p slice (polyLen p.length) 0

theorem buildTable_length (p : PolyParam) (slice : Nat → Nat) : (buildTable p slice).length = polyLen p.length := by
  rw [buildTable_eq, List.length_map, List.length_range]

theorem buildTable_getElem? {p : PolyParam} {i : Nat} (h : i < polyLen p.length) (slice : Nat → Nat) :
    (buildTable p slice)[i]? = some (slice (lfsrState p i)) := by
  rw [buildTable_eq, List.getElem?_map, List.getElem?_range h, Option.map_some]

theorem hasTable_iff (n : Nat) (sl : Slice) :
    hasTable n sl = true ↔ n ∈ [4, 5, 9, 17] ∧ (sl = .random → n ∈ [9, 17]) := by
  cases sl with
  | gate => simp [hasTable, tableLengths]
  | random =>
    simp only [hasTable, Bool.or_eq_true, beq_iff_eq, List.mem_cons, List.not_mem_nil, or_false, true_implies]
    omega

theorem exec_build_of_table {n : Nat} {sl : Slice} {p : PolyParam} (hp : polyParam n = some p)
    (h : hasTable n sl = true) (s : State) :
    exec (.build n sl) s = .next (Reference.told s (.tableBuilt (buildTable p (sliceOf n sl)))) := by
  rw [exec, execBuild, hp, h]
  rfl

theorem exec_build_of_no_table {n : Nat} {sl : Slice} (h : hasTable n sl = false) (s : State) :
    exec (.build n sl) s = .refused (.tableLengthMismatch n) := by
  rw [exec, execBuild, h]
  cases polyParam n <;> rfl

theorem sliceOf_random (n x : Nat) : sliceOf n .random x = if n = 17 then (x / 64) % 256 else x % 256 := by
  rw [sliceOf, slice17, slice9, Nat.shiftRight_eq_div_pow]

/-- A row of the parameter table of `40_polynomial.md` R81: length, left, right, add. -/
def PolyParam.ofRow (q : Nat × Nat × Nat × Nat) : PolyParam :=
  { length := q.1, left := q.2.1, right := q.2.2.1, add := q.2.2.2 }

/-- `BUILD` looks up each row of the parameter table by its length. -/
theorem polyParam_of_row : ∀ q ∈ ([(4, 3, 1, 0x4), (5, 3, 2, 0x8), (9, 2, 7, 0x80), (17, 7, 10, 0x18000)] :
    List (Nat × Nat × Nat × Nat)), q.1 ∈ [4, 5, 9, 17] ∧
      polyParam q.1 = some (PolyParam.ofRow q) := by decide

/-- Settles O14: the states are those of the recurrence, the entries the table that the loop stores. -/
theorem buildReturnsTheRecurrenceTable : Obligations.BuildReturnsTheRecurrenceTable := by
  refine ⟨fun s q hq sl hsl => ?_, fun s n sl h => exec_build_of_no_table ?_ s⟩
  · obtain ⟨hlength, hparam⟩ := polyParam_of_row q hq
    have htable : hasTable q.1 sl = true := (hasTable_iff q.1 sl).2 ⟨hlength, by simpa using hsl⟩
    refine ⟨lfsrState (PolyParam.ofRow q), _, rfl, fun _ => rfl, buildTable_length _ _, fun i hi => ?_,
      exec_build_of_table hparam htable s⟩
    rw [buildTable_getElem? (p := PolyParam.ofRow q) hi]
    cases sl with
    | gate => rfl
    | random => rw [sliceOf_random]
  · rw [Bool.eq_false_iff, ne_eq, hasTable_iff]
    rintro ⟨hlength, hrandom⟩
    obtain hn | ⟨hsl, hn⟩ := h
    · exact hn hlength
    · exact hn (hrandom hsl)

/-! ### The `acknowledge` contract -/

theorem execAll_cons_of_next {i : Instr} {s t : State} (h : exec i s = .next t) (rest : List Instr) :
    execAll (i :: rest) s = execAll rest t := by
  rw [execAll, h]

/-- An acknowledge moves no deadline. -/
theorem acknowledgeEnable_settled {s : State} (h : s.Settled) (v : Byte) : (acknowledgeEnable v s).Settled := h

theorem exec_wIrqen_of_settled {s : State} (h : s.Settled) (v : Byte) :
    exec (.wIrqen v) s = .next (acknowledgeEnable v s) := by
  rw [exec, execWIrqen, regWriteWith, settle_of_settled (acknowledgeEnable_settled h v)]

/-- Where every pending bit is enabled, a write of the enables after a write of them without `mask` clears no more than `mask`. -/
theorem pending_after_acknowledge {pending enables : Byte} (h : pending &&& ~~~enables = 0#8) (mask : Byte) :
    pending &&& (enables &&& ~~~mask) &&& enables = pending &&& ~~~mask := by
  apply BitVec.eq_of_getLsbD_eq
  intro i hi
  have hbit : (pending &&& ~~~enables).getLsbD i = false := by rw [h, BitVec.getLsbD_zero]
  simp only [BitVec.getLsbD_and, BitVec.getLsbD_not, hi, decide_true, Bool.true_and] at hbit ⊢
  revert hbit
  cases pending.getLsbD i <;> cases enables.getLsbD i <;> simp

/-- Settles O45: neither write makes a deadline due, and by the invariant every pending bit is enabled. -/
theorem acknowledgeContractClearsTheMask : Obligations.AcknowledgeContractClearsTheMask := by
  intro s mask hinv
  have hfirst := exec_wIrqen_of_settled hinv.settled (s.irqen &&& ~~~mask)
  have hsecond := exec_wIrqen_of_settled (acknowledgeEnable_settled hinv.settled (s.irqen &&& ~~~mask)) s.irqen
  rw [expand, execAll_cons_of_next hfirst, execAll_cons_of_next hsecond, ← pending_after_acknowledge hinv.pendingEnabled]
  rfl

end Sys2Proof.Machine
end

section
/-!
PROOFS. The RANDOM register (`40_polynomial.md` R87, R89): what a read does with the two indices, that no operation but a
RANDOM read and `RESET` touches them, and the law of two reads.
-/

namespace Sys2Proof.Machine

/-! ### One read -/

/-- A RANDOM index after a read: moved by the ticks since the previous read where the reset-control is set, else frozen at 0
(`40_polynomial.md` R87). -/
def readIndex (s : State) (index length : Nat) : Nat :=
  if s.skctl.toNat % 4 ≠ 0 then (index + (s.now - s.randLast)) % length else 0

theorem readIndex_of_running {s : State} (h : s.skctl.toNat % 4 ≠ 0) (index length : Nat) :
    readIndex s index length = (index + (s.now - s.randLast)) % length := if_pos h

theorem readIndex_of_frozen {s : State} (h : s.skctl.toNat % 4 = 0) (index length : Nat) :
    readIndex s index length = 0 := if_neg (not_not.2 h)

theorem randomAdvance_eq (s : State) :
    randomAdvance s = { s with r9 := readIndex s s.r9 511, r17 := readIndex s s.r17 131071, randLast := s.now } := by
  by_cases h : s.skctl.toNat % 4 = 0
  · simp [randomAdvance, skctlResetSet, readIndex_of_frozen h, h]
  · simp [randomAdvance, skctlResetSet, readIndex_of_running h, h, polyLen]

theorem randomEntry_eq (s : State) :
    randomEntry s = BitVec.ofNat 8
      (if s.audctl.getLsbD 7 then lfsrState param9 s.r9 % 256 else lfsrState param17 s.r17 / 64 % 256) := by
  rw [randomEntry, audctlPoly9, apply_ite (BitVec.ofNat 8), rand9, rand17, slice9, slice17, Nat.shiftRight_eq_div_pow]

theorem exec_rRandom (s : State) :
    exec .rRandom s = .next (returnByte (0xFF#8 ^^^ randomEntry (randomAdvance s)) (randomAdvance s)) := rfl

/-- Settles O16: the read is the advance of the indices and the complement of the entry that they then select. -/
theorem randomReadAdvancesAndComplements : Obligations.RandomReadAdvancesAndComplements := by
  intro s
  rw [exec_rRandom, randomEntry_eq, randomAdvance_eq]
  rfl

/-! ### What leaves the indices alone -/

/-- The two RANDOM indices and the tick of the previous read (`10_state.md` R30). -/
def randomPart (s : State) : Nat × Nat × Nat := (s.r9, s.r17, s.randLast)

@[simp] theorem randomPart_emit (e : HostEvent) (s : State) : randomPart (emit e s) = randomPart s := rfl

@[simp] theorem randomPart_setCh (s : State) (c : Ch) (k : Channel) : randomPart (s.setCh c k) = randomPart s := by
  simp [randomPart]

theorem SameSettings.randomPart_eq {s t : State} (h : SameSettings s t) : randomPart t = randomPart s := by
  obtain ⟨h9, h17, hlast⟩ := h.random
  rw [randomPart, h9, h17, hlast, ← randomPart]

@[simp] theorem randomPart_settle (s : State) : randomPart (settle s) = randomPart s := (settle_settings s).randomPart_eq

@[simp] theorem randomPart_configure (c : Ch) (s : State) : randomPart (configure c s) = randomPart s := by
  obtain ⟨n, o, v, a, h⟩ := configure_frame c s
  rw [h, randomPart_setCh]

@[simp] theorem randomPart_setAudf (c : Ch) (v : Byte) (s : State) : randomPart (setAudf c v s) = randomPart s :=
  randomPart_setCh s c _

@[simp] theorem randomPart_setAudc (c : Ch) (v : Byte) (s : State) : randomPart (setAudc c v s) = randomPart s :=
  randomPart_setCh s c _

theorem randomPart_foldl_configure (l : List Ch) (s : State) :
    randomPart (l.foldl (fun s c => configure c s) s) = randomPart s := by
  induction l generalizing s with
  | nil => rfl
  | cons c l ih => rw [List.foldl_cons, ih, randomPart_configure]

@[simp] theorem randomPart_channelEvent (c : Ch) (s : State) : randomPart (channelEvent c s) = randomPart s := by
  obtain ⟨n1, n2, n3, n4, o1, o2, o3, o4, h⟩ := channelEvent_frame c s
  rw [h]
  rfl

@[simp] theorem randomPart_timerExpiry (k : TimerId) (s : State) : randomPart (timerExpiry k s) = randomPart s := by
  obtain ⟨d, q, l, h⟩ := timerExpiry_frame k s
  rw [h]
  simp [randomPart]

@[simp] theorem randomPart_serialReady (s : State) : randomPart (serialReady s) = randomPart s := by
  obtain ⟨d, q, l, h⟩ := serialReady_frame s
  rw [h]
  rfl

@[simp] theorem randomPart_serialComplete (s : State) : randomPart (serialComplete s) = randomPart s := by
  obtain ⟨d, k, q, l, h⟩ := serialComplete_frame s
  rw [h]
  rfl

@[simp] theorem randomPart_potComplete (i : Fin 8) (s : State) : randomPart (potComplete i s) = randomPart s := by
  obtain ⟨a, p, h⟩ := potComplete_frame i s
  rw [h]
  rfl

@[simp] theorem randomPart_potgo (s : State) : randomPart (potgo s) = randomPart s := by
  obtain ⟨p, l, h⟩ := potgo_frame s
  rw [h]
  rfl

@[simp] theorem randomPart_askAllpot (s : State) : randomPart (askAllpot s).2 = randomPart s := by
  unfold askAllpot
  split <;> rfl

@[simp] theorem randomPart_askSerial (s : State) : randomPart (askSerial s).2 = randomPart s := by
  unfold askSerial
  split <;> rfl

/-- A bus write leaves what its operation leaves, through its closing `Settle`. -/
theorem randomPart_of_regWriteWith {op : State → State} {s t : State} (keep : randomPart (op s) = randomPart s)
    (h : Host.Outcome.next (φ := Fault) (ρ := Refusal) (regWriteWith op s) = .next t) : randomPart t = randomPart s := by
  obtain rfl := Host.Outcome.next.inj h
  rw [regWriteWith, randomPart_settle, keep]

/-- A bus read leaves what its effect leaves, when it tells the host its byte. -/
theorem randomPart_of_returnByte {b : Byte} {s u t : State} (keep : randomPart u = randomPart s)
    (h : Host.Outcome.next (φ := Fault) (ρ := Refusal) (returnByte b u) = .next t) : randomPart t = randomPart s := by
  obtain rfl := Host.Outcome.next.inj h
  rw [returnByte, randomPart_emit, keep]

/-- The AUDF writes of CH1 and CH3, with the joined partner or without it. -/
theorem randomPart_configureJoined (c d : Ch) (v : Byte) (joined : Byte → Bool) (s : State) :
    randomPart (let t := configure c (setAudf c v s); if joined t.audctl then configure d t else t) = randomPart s := by
  simp only
  split <;> simp

theorem randomPart_of_execBuild {n : Nat} {slice : Slice} {s t : State} (h : execBuild n slice s = .next t) :
    randomPart t = randomPart s := by
  unfold execBuild at h
  split at h
  · exact Host.Outcome.next.inj h ▸ randomPart_emit _ s
  · cases h

/-- Only a RANDOM read and `RESET` touch the RANDOM indices (`40_polynomial.md` R87, `70_reset_and_hazards.md`). -/
theorem randomPart_of_exec {i : Instr} {s t : State} (hread : i ≠ .rRandom) (hreset : i ≠ .reset)
    (h : exec i s = .next t) : randomPart t = randomPart s := by
  cases i with
  | wAudf1 v => exact randomPart_of_regWriteWith (randomPart_configureJoined .ch1 .ch2 v audctlJoin12 s) h
  | wAudf3 v => exact randomPart_of_regWriteWith (randomPart_configureJoined .ch3 .ch4 v audctlJoin34 s) h
  | wAudf2 v | wAudf4 v | wAudc1 v | wAudc2 v | wAudc3 v | wAudc4 v => exact randomPart_of_regWriteWith (by simp) h
  | wAudctl v => exact randomPart_of_regWriteWith (randomPart_foldl_configure channelOrder { s with audctl := v }) h
  | wPotgo v => exact randomPart_of_regWriteWith (randomPart_potgo s) h
  | wStimer v | wSkrest v | wUnmapped v | wSerout v | wIrqen v | wSkctl v | wOutOfRange off v =>
    exact randomPart_of_regWriteWith rfl h
  | rPot0 | rPot1 | rPot2 | rPot3 | rPot4 | rPot5 | rPot6 | rPot7 | rKbcode | rUnmappedB | rUnmappedC | rIrqst | rSkstat
  | rOutOfRange off => exact randomPart_of_returnByte rfl h
  | rAllpot => exact randomPart_of_returnByte (randomPart_askAllpot s) h
  | rSerin =>
    exact randomPart_of_returnByte (u := { (askSerial s).2 with serin := (askSerial s).1 }) (randomPart_askSerial s) h
  | rRandom => exact absurd rfl hread
  | evCh1 | evCh2 | evCh3 | evCh4 => exact Host.Outcome.next.inj h ▸ randomPart_channelEvent _ s
  | evSample => exact Host.Outcome.next.inj h ▸ (sampleEvent_settings s).randomPart_eq
  | evT1 | evT2 | evT4 => exact Host.Outcome.next.inj h ▸ randomPart_timerExpiry _ s
  | evSerReady => exact Host.Outcome.next.inj h ▸ randomPart_serialReady s
  | evSerComplete => exact Host.Outcome.next.inj h ▸ randomPart_serialComplete s
  | evPot0 | evPot1 | evPot2 | evPot3 | evPot4 | evPot5 | evPot6 | evPot7 =>
    exact Host.Outcome.next.inj h ▸ randomPart_potComplete _ s
  | render n => exact (exec_render_settings h).randomPart_eq
  | build n slice => exact randomPart_of_execBuild h
  | reset => exact absurd rfl hreset

/-! ### Time between two reads -/

theorem exec_render_now_le {n : Nat} {s t : State} (h : exec (.render n) s = .next t) : s.now ≤ t.now := by
  obtain ⟨u, hu, ht⟩ := exec_render_next h
  have keep (v : State) (hv : s.now ≤ v.now) : s.now ≤ (schedStep v).now := by
    rw [(schedStep_timeMoved v).now]
    exact Nat.le_add_right_of_le hv
  rw [ht, (settle_untimed u).now]
  exact renderLoop_keeps keep _ _ s u le_rfl hu

/-- Time never goes back, but for `RESET`. -/
theorem exec_now_le {i : Instr} {s t : State} (hreset : i ≠ .reset) (h : exec i s = .next t) : s.now ≤ t.now := by
  by_cases hrender : ∃ n, i = .render n
  · obtain ⟨n, rfl⟩ := hrender
    exact exec_render_now_le h
  · exact (exec_untimed hreset (fun n e => hrender ⟨n, e⟩) h).now.ge

theorem execAll_cons_next {i : Instr} {l : List Instr} {s u : State} (h : execAll (i :: l) s = .next u) :
    ∃ t, exec i s = .next t ∧ execAll l t = .next u := by
  rw [execAll] at h
  split at h
  · next t ht => exact ⟨t, ht, h⟩
  · cases h
  · cases h

/-- Operations without a RANDOM read and without a `RESET` let time pass and leave the RANDOM indices. -/
theorem execAll_randomPart {l : List Instr} {s t : State} (hread : .rRandom ∉ l) (hreset : .reset ∉ l)
    (h : execAll l s = .next t) : s.now ≤ t.now ∧ randomPart t = randomPart s := by
  induction l generalizing s with
  | nil =>
    obtain rfl := Host.Outcome.next.inj h
    exact ⟨le_rfl, rfl⟩
  | cons i l ih =>
    obtain ⟨v, hv, hrest⟩ := execAll_cons_next h
    obtain ⟨hread, hreadl⟩ := List.ne_and_not_mem_of_not_mem_cons hread
    obtain ⟨hreset, hresetl⟩ := List.ne_and_not_mem_of_not_mem_cons hreset
    obtain ⟨hnow, hpart⟩ := ih hreadl hresetl hrest
    exact ⟨(exec_now_le hreset.symm hv).trans hnow, hpart.trans (randomPart_of_exec hread.symm hreset.symm hv)⟩

/-! ### The law of two reads -/

/-- After a read the indices are those it moved to, and the previous read is this one. -/
theorem randomPart_of_rRandom {s t : State} (h : exec .rRandom s = .next t) :
    t.now = s.now ∧ randomPart t = (readIndex s s.r9 511, readIndex s s.r17 131071, s.now) := by
  obtain rfl := Host.Outcome.next.inj h
  rw [returnByte, randomPart_emit, randomAdvance_eq]
  exact ⟨rfl, rfl⟩

/-- With the reset-control clear both indices are 0, and so is the entry behind them. -/
theorem randomEntry_of_frozen {s : State} (h : s.skctl.toNat % 4 = 0) : randomEntry (randomAdvance s) = 0#8 := by
  rw [randomEntry_eq, randomAdvance_eq, readIndex_of_frozen h, readIndex_of_frozen h]
  simp [lfsrState]

/-- Settles O17: between the reads the indices stand still, so the second read moves them by all ticks since the first. -/
theorem randomIndexMovesByElapsedTicks : Obligations.RandomIndexMovesByElapsedTicks := by
  refine ⟨fun s t u v l hst hread hreset htu hrun huv => ?_, fun s t hfrozen h => ?_⟩
  · obtain ⟨hnow, first⟩ := randomPart_of_rRandom hst
    obtain ⟨hle, between⟩ := execAll_randomPart hread hreset htu
    obtain ⟨-, second⟩ := randomPart_of_rRandom huv
    simp only [randomPart, Prod.mk.injEq] at first between second
    obtain ⟨-, -, hlast⟩ := first
    obtain ⟨h9, h17, hsame⟩ := between
    obtain ⟨hv9, hv17, -⟩ := second
    have since : u.randLast = t.now := by rw [hsame, hlast, hnow]
    rw [hv9, hv17, readIndex_of_running hrun, readIndex_of_running hrun, since, h9, h17]
    exact ⟨hle, rfl, rfl⟩
  · obtain rfl := Host.Outcome.next.inj h
    rw [randomEntry_of_frozen hfrozen, returnByte, emit_trace, (randomAdvance_untimed s).now, randomAdvance_env]
    rfl

end Sys2Proof.Machine
end

section
/-!
PROOFS. The maximal length of the LFSR sequences (`40_polynomial.md` R81, R84). For the parameters of R81 a step of the
recurrence rotates the state and adds an odd number to its two highest bits, so it is an affine map over GF(2). About its
fixed point it is linear, and squaring the matrix of that linear map once per bit gives the matrix back. Hence `2^n` steps
are one step, and the period of the seed divides `2^n - 1`; that no proper divisor is a period is a check on few states.
-/

namespace Sys2Proof.Machine

/-! ### Linear maps over GF(2) -/

/-- The map respects addition over GF(2), which is the exclusive or. -/
def XorLinear (g : Nat → Nat) : Prop := ∀ x y, g (x ^^^ y) = g x ^^^ g y

theorem XorLinear.map_zero {g : Nat → Nat} (hg : XorLinear g) : g 0 = 0 := by
  simpa using hg 0 0

theorem XorLinear.map_bit_mul {g : Nat → Nat} (hg : XorLinear g) (x c : Nat) : g (x % 2 * c) = x % 2 * g c := by
  obtain h | h := Nat.mod_two_eq_zero_or_one x
  · rw [h, Nat.zero_mul, Nat.zero_mul, hg.map_zero]
  · rw [h, Nat.one_mul, Nat.one_mul]

theorem bit_mul_xorLinear (c : Nat) : XorLinear (fun x => x % 2 * c) := by
  intro x y
  obtain hx | hx := Nat.mod_two_eq_zero_or_one x <;> obtain hy | hy := Nat.mod_two_eq_zero_or_one y <;>
    simp [Nat.xor_mod_two_eq, Nat.add_mod, hx, hy]

/-- The linear map whose matrix has the given columns, the image of the lowest bit first. -/
def xorSum : List Nat → Nat → Nat
  | [], _ => 0
  | c :: cs, x => x % 2 * c ^^^ xorSum cs (x / 2)

theorem xorSum_xorLinear (cs : List Nat) : XorLinear (xorSum cs) := by
  induction cs with
  | nil => exact fun _ _ => (Nat.xor_self 0).symm
  | cons c cs ih =>
    intro x y
    have lowest := bit_mul_xorLinear c x y
    simp only [xorSum, Nat.xor_div_two, ih (x / 2) (y / 2)] at lowest ⊢
    rw [lowest]
    ac_rfl

/-- The matrix of `g` on `n` bits. -/
def columns (g : Nat → Nat) : Nat → List Nat
  | 0 => []
  | n + 1 => g 1 :: columns (fun x => g (x * 2)) n

/-- A number below a power of two adds to a multiple of it without carries. -/
theorem shiftLeft_add_eq_xor {i b : Nat} (h : b < 2 ^ i) (a : Nat) : a <<< i + b = a <<< i ^^^ b := by
  rw [Nat.shiftLeft_eq, Nat.mul_comm]
  refine Nat.eq_of_testBit_eq fun j => ?_
  rw [Nat.testBit_two_pow_mul_add a h, Nat.testBit_xor, Nat.testBit_two_pow_mul]
  by_cases hj : j < i
  · simp [hj, Nat.not_le.2 hj]
  · have hb : b.testBit j = false := Nat.testBit_lt_two_pow (h.trans_le (Nat.pow_le_pow_right (by decide) (by omega)))
    simp [hj, hb, Nat.not_lt.1 hj]

theorem lowest_bit_xor_rest (x : Nat) : x % 2 ^^^ x / 2 * 2 = x := by
  have h := shiftLeft_add_eq_xor (i := 1) (b := x % 2) (by omega) (x / 2)
  rw [Nat.shiftLeft_eq, Nat.pow_one] at h
  rw [Nat.xor_comm, ← h]
  omega

/-- On the numbers of `n` bits a linear map is that of its matrix. -/
theorem xorSum_columns {g : Nat → Nat} (hg : XorLinear g) {n x : Nat} (hx : x < 2 ^ n) : xorSum (columns g n) x = g x := by
  induction n generalizing g x with
  | zero => rw [Nat.lt_one_iff.1 hx, hg.map_zero, columns, xorSum]
  | succ n ih =>
    have shifted : XorLinear (fun x => g (x * 2)) := fun x y => by
      rw [← hg, ← Nat.shiftLeft_eq x 1, ← Nat.shiftLeft_eq y 1, ← Nat.shiftLeft_xor_distrib, Nat.shiftLeft_eq]
    have hlow : g (x % 2) = x % 2 * g 1 := by simpa using hg.map_bit_mul x 1
    rw [columns, xorSum, ih shifted (by omega), ← hlow, ← hg, lowest_bit_xor_rest]

/-- The matrix times itself. -/
def squared (cs : List Nat) : List Nat := cs.map (xorSum cs)

theorem xorSum_map (ds cs : List Nat) (x : Nat) : xorSum (cs.map (xorSum ds)) x = xorSum ds (xorSum cs x) := by
  induction cs generalizing x with
  | nil => exact (xorSum_xorLinear ds).map_zero.symm
  | cons c cs ih => rw [List.map_cons, xorSum, ih, xorSum, xorSum_xorLinear ds, (xorSum_xorLinear ds).map_bit_mul]

/-- Squaring the matrix `k` times gives the map iterated `2^k` times. -/
theorem xorSum_squared_iterate (cs : List Nat) (k : Nat) : xorSum (squared^[k] cs) = (xorSum cs)^[2 ^ k] := by
  induction k with
  | zero => rfl
  | succ k ih =>
    funext x
    rw [Function.iterate_succ_apply', squared, xorSum_map, ih, ← Function.iterate_add_apply, ← Nat.two_mul, Nat.pow_succ']

/-! ### A step of the recurrence is affine -/

/-- What the parameters of `40_polynomial.md` R81 have in common: the two shifts make a rotation, and the number added is
odd when counted in units of the second highest bit. -/
structure PolyParam.RotatesAndAdds (p : PolyParam) : Prop where
  bits : 2 ≤ p.length := by decide
  shifts : p.left + p.right = p.length := by rfl
  adds : ∃ c, c < 4 ∧ c % 2 = 1 ∧ p.add = c * 2 ^ (p.length - 2)

/-- The carry of an odd addition to the two highest of `m + 2` bits: the second highest bit goes into the highest. -/
def foldCarry (m y : Nat) : Nat := (y ^^^ y / 2 ^ m % 2 * 2 ^ (m + 1)) % 2 ^ (m + 2)

theorem foldCarry_xorLinear (m : Nat) : XorLinear (foldCarry m) := by
  intro x y
  have carry := bit_mul_xorLinear (2 ^ (m + 1)) (x / 2 ^ m) (y / 2 ^ m)
  simp only at carry
  rw [foldCarry, foldCarry, foldCarry, ← Nat.xor_mod_two_pow, Nat.xor_div_two_pow, carry]
  congr 1
  ac_rfl

/-- On two bits an odd addition is an exclusive or and its carry. -/
theorem two_bits_add_odd (t : Nat) {c : Nat} (hc : c % 2 = 1) : (t + c) % 4 = (t ^^^ t % 2 * 2 ^^^ c) % 4 := by
  have small : ∀ t < 4, ∀ c < 4, c % 2 = 1 → (t + c) % 4 = t ^^^ t % 2 * 2 ^^^ c := by decide
  have h := small (t % 4) (by omega) (c % 4) (by omega) (by omega)
  have hbit : t % 2 * 2 % 4 = t % 2 * 2 := by omega
  rw [← Nat.add_mod, Nat.mod_mod_of_dvd t (by decide)] at h
  rw [h, Nat.xor_mod_two_pow (n := 2), Nat.xor_mod_two_pow (n := 2), hbit]

/-- An odd addition above the lowest `m` bits is an exclusive or and its carry. -/
theorem add_odd_eq_foldCarry (m y : Nat) {c : Nat} (hc : c % 2 = 1) (hlt : c < 4) :
    (y + c * 2 ^ m) % 2 ^ (m + 2) = foldCarry m y ^^^ c * 2 ^ m := by
  have hfits : c * 2 ^ m = c * 2 ^ m % 2 ^ (m + 2) := by
    rw [Nat.mod_eq_of_lt]
    rw [Nat.pow_add, Nat.mul_comm (2 ^ m)]
    exact Nat.mul_lt_mul_of_pos_right hlt (Nat.two_pow_pos m)
  have hcarry : y / 2 ^ m % 2 * 2 ^ (m + 1) = y / 2 ^ m % 2 * 2 * 2 ^ m := by rw [Nat.pow_succ', Nat.mul_assoc]
  rw [foldCarry, hcarry, hfits, ← Nat.xor_mod_two_pow, ← hfits, Nat.pow_add, Nat.mod_mul, Nat.mod_mul, Nat.xor_div_two_pow,
    Nat.xor_div_two_pow, Nat.xor_mod_two_pow, Nat.xor_mod_two_pow]
  simp only [Nat.mul_div_cancel _ (Nat.two_pow_pos m), Nat.add_mul_div_right _ _ (Nat.two_pow_pos m),
    Nat.add_mul_mod_self_right, Nat.mul_mod_left, Nat.xor_zero]
  rw [two_bits_add_odd _ hc]

/-- The linear part of a step. -/
def lfsrLinear (p : PolyParam) (x : Nat) : Nat := foldCarry (p.length - 2) (x <<< p.left ^^^ x >>> p.right)

theorem lfsrLinear_xorLinear (p : PolyParam) : XorLinear (lfsrLinear p) := by
  intro x y
  rw [lfsrLinear, lfsrLinear, lfsrLinear, ← foldCarry_xorLinear, Nat.shiftLeft_xor_distrib, Nat.shiftRight_xor_distrib]
  congr 1
  ac_rfl

theorem lfsrNext_lt (p : PolyParam) (x : Nat) : lfsrNext p x < 2 ^ p.length :=
  Nat.and_lt_two_pow _ (Nat.sub_lt (Nat.two_pow_pos _) Nat.one_pos)

/-- A step is its linear part and the exclusive or with the number added. -/
theorem lfsrNext_eq_linear {p : PolyParam} (hp : p.RotatesAndAdds) {x : Nat} (hx : x < 2 ^ p.length) :
    lfsrNext p x = lfsrLinear p x ^^^ p.add := by
  obtain ⟨bits, shifts, c, hlt, hodd, hadd⟩ := hp
  have hright : x >>> p.right < 2 ^ p.left := by
    rw [Nat.shiftRight_eq_div_pow]
    exact Nat.div_lt_of_lt_mul (by rwa [← Nat.pow_add, Nat.add_comm, shifts])
  rw [lfsrNext, Nat.and_two_pow_sub_one_eq_mod, shiftLeft_add_eq_xor hright, hadd, lfsrLinear,
    ← add_odd_eq_foldCarry _ _ hodd hlt, Nat.sub_add_cancel bits]

/-! ### The period of the seed -/

/-- What makes the sequence of `p` one of maximal length, with `z` the fixed point and `w` the state before the seed. The
fields with a default are settled by evaluation where `p`, `z` and `w` are given. -/
structure PolyParam.MaximalAbout (p : PolyParam) (z w : Nat) : Prop extends p.RotatesAndAdds where
  fixed_lt : z < 2 ^ p.length := by decide
  fixed : lfsrNext p z = z := by rfl
  last_lt : w < 2 ^ p.length := by decide
  last : lfsrNext p w = 0 := by rfl
  /-- The matrix of a step to the power `2^n` is the matrix itself. -/
  frobenius : squared^[p.length] (columns (lfsrLinear p) p.length) = columns (lfsrLinear p) p.length := by decide +kernel
  /-- No proper divisor of `2^n - 1` is a period of the seed. -/
  no_divisor : ∀ q, q.Prime → q ∣ 2 ^ p.length - 1 → lfsrState p ((2 ^ p.length - 1) / q) ≠ 0

theorem lfsrState_eq_iterate (p : PolyParam) (i : Nat) : lfsrState p i = (lfsrNext p)^[i] 0 := by
  induction i with
  | zero => rfl
  | succ i ih => rw [lfsrState, ih, Function.iterate_succ_apply']

theorem lfsrState_lt (p : PolyParam) (i : Nat) : lfsrState p i < 2 ^ p.length := by
  cases i with
  | zero => exact Nat.two_pow_pos _
  | succ i => exact lfsrNext_lt p _

section
variable {p : PolyParam} {z w : Nat}

/-- Seen from the fixed point a step is the linear map of its matrix. -/
theorem lfsrNext_about_fixed (h : p.MaximalAbout z w) {x : Nat} (hx : x < 2 ^ p.length) :
    lfsrNext p x = xorSum (columns (lfsrLinear p) p.length) (x ^^^ z) ^^^ z := by
  have linear := lfsrLinear_xorLinear p
  have fixed : lfsrLinear p z ^^^ p.add = z := (lfsrNext_eq_linear h.toRotatesAndAdds h.fixed_lt).symm.trans h.fixed
  calc lfsrNext p x
      = lfsrLinear p x ^^^ p.add := lfsrNext_eq_linear h.toRotatesAndAdds hx
    _ = lfsrLinear p (x ^^^ z) ^^^ (lfsrLinear p z ^^^ p.add) := by
        rw [linear, Nat.xor_assoc, ← Nat.xor_assoc (lfsrLinear p z), Nat.xor_self, Nat.zero_xor]
    _ = xorSum (columns (lfsrLinear p) p.length) (x ^^^ z) ^^^ z := by
        rw [fixed, xorSum_columns linear (Nat.xor_lt_two_pow hx h.fixed_lt)]

theorem lfsrNext_iterate_about_fixed (h : p.MaximalAbout z w) {x : Nat} (hx : x < 2 ^ p.length) (k : Nat) :
    (lfsrNext p)^[k] x = (xorSum (columns (lfsrLinear p) p.length))^[k] (x ^^^ z) ^^^ z := by
  induction k generalizing x with
  | zero => rw [Function.iterate_zero_apply, Function.iterate_zero_apply, Nat.xor_assoc, Nat.xor_self, Nat.xor_zero]
  | succ k ih =>
    rw [Function.iterate_succ_apply, ih (lfsrNext_lt p x), lfsrNext_about_fixed h hx, Nat.xor_assoc, Nat.xor_self,
      Nat.xor_zero, Function.iterate_succ_apply]

/-- `2^n` steps are one step. -/
theorem lfsrNext_iterate_two_pow (h : p.MaximalAbout z w) {x : Nat} (hx : x < 2 ^ p.length) :
    (lfsrNext p)^[2 ^ p.length] x = lfsrNext p x := by
  rw [lfsrNext_iterate_about_fixed h hx, ← xorSum_squared_iterate, h.frobenius, lfsrNext_about_fixed h hx]

/-- `2^n` steps from the state before the seed end at the seed, after the first step has reached it. -/
theorem seed_isPeriodicPt (h : p.MaximalAbout z w) : Function.IsPeriodicPt (lfsrNext p) (2 ^ p.length - 1) 0 := by
  have around := lfsrNext_iterate_two_pow h h.last_lt
  rw [← Nat.sub_add_cancel (Nat.two_pow_pos p.length), Function.iterate_succ_apply, h.last] at around
  exact around

/-- A period that no division by a prime shortens is the least one. -/
theorem minimalPeriod_eq_of_prime_divisors {f : Nat → Nat} {x n : Nat} (hper : Function.IsPeriodicPt f n x)
    (hdiv : ∀ q, q.Prime → q ∣ n → f^[n / q] x ≠ x) : Function.minimalPeriod f x = n := by
  obtain ⟨k, hk⟩ := hper.minimalPeriod_dvd
  by_cases hone : k = 1
  · rw [hk, hone, Nat.mul_one]
  · obtain ⟨q, hq, j, rfl⟩ := Nat.exists_prime_and_dvd hone
    have hquot : n / q = Function.minimalPeriod f x * j :=
      Nat.div_eq_of_eq_mul_right hq.pos (by rw [hk]; ac_rfl)
    refine absurd ?_ (hdiv q hq ⟨_, hk.trans (Nat.mul_left_comm _ q j)⟩)
    rw [hquot]
    exact (Function.isPeriodicPt_minimalPeriod f x).mul_const j

theorem seed_minimalPeriod (h : p.MaximalAbout z w) : Function.minimalPeriod (lfsrNext p) 0 = 2 ^ p.length - 1 := by
  refine minimalPeriod_eq_of_prime_divisors (seed_isPeriodicPt h) fun q hq hdvd => ?_
  rw [← lfsrState_eq_iterate]
  exact h.no_divisor q hq hdvd

/-! ### The states visited -/

theorem lfsrState_injOn (h : p.MaximalAbout z w) : Set.InjOn (lfsrState p) (Finset.range (2 ^ p.length - 1)) := by
  have inj := Function.iterate_injOn_Iio_minimalPeriod (f := lfsrNext p) (x := 0)
  rw [seed_minimalPeriod h] at inj
  intro i hi j hj hij
  rw [lfsrState_eq_iterate, lfsrState_eq_iterate] at hij
  exact inj (Finset.mem_range.1 hi) (Finset.mem_range.1 hj) hij

/-- A fixed point has period 1, and the visited states have the period of the seed. -/
theorem lfsrState_ne_fixed (h : p.MaximalAbout z w) (i : Nat) : lfsrState p i ≠ z := by
  intro hz
  have four_le : 2 ^ 2 ≤ 2 ^ p.length := Nat.pow_le_pow_right (by decide) h.bits
  have seed := Function.mk_mem_periodicPts (by omega) (seed_isPeriodicPt h)
  have same := Function.minimalPeriod_apply_iterate seed i
  rw [← lfsrState_eq_iterate, hz, seed_minimalPeriod h, Function.minimalPeriod_eq_one_iff_isFixedPt.2 h.fixed] at same
  omega

/-- The distinct states of one period are as many as the values other than the fixed point. -/
theorem lfsrState_visits (h : p.MaximalAbout z w) {x : Nat} (hx : x < 2 ^ p.length) (hne : x ≠ z) :
    ∃ i, lfsrState p i = x := by
  have others : Set.MapsTo (lfsrState p) (Finset.range (2 ^ p.length - 1)) ((Finset.range (2 ^ p.length)).erase z) :=
    fun i _ => Finset.mem_coe.2 (Finset.mem_erase.2 ⟨lfsrState_ne_fixed h i, Finset.mem_range.2 (lfsrState_lt p i)⟩)
  have count : ((Finset.range (2 ^ p.length)).erase z).card ≤ (Finset.range (2 ^ p.length - 1)).card := by
    rw [Finset.card_erase_of_mem (Finset.mem_range.2 h.fixed_lt), Finset.card_range, Finset.card_range]
  have onto := Finset.surjOn_of_injOn_of_card_le _ others (lfsrState_injOn h) count
  obtain ⟨i, -, hi⟩ := onto (Finset.mem_coe.2 (Finset.mem_erase.2 ⟨hne, Finset.mem_range.2 hx⟩))
  exact ⟨i, hi⟩

end

/-! ### The four parameter sets -/

/-- A prime divisor of a product of primes is one of them. -/
theorem no_divisor_of_primes {p : PolyParam} {n : Nat} (l : List Nat) (hprod : l.prod = n) (hprime : ∀ a ∈ l, a.Prime)
    (hstate : ∀ a ∈ l, lfsrState p (n / a) ≠ 0) (q : Nat) (hq : q.Prime) (hdvd : q ∣ n) : lfsrState p (n / q) ≠ 0 := by
  obtain ⟨a, ha, hqa⟩ := (Prime.dvd_prod_iff hq.prime).1 (hprod ▸ hdvd)
  rw [(Nat.prime_dvd_prime_iff_eq hq (hprime a ha)).1 hqa]
  exact hstate a ha

theorem param4_maximal : param4.MaximalAbout 0x8 0x9 where
  adds := ⟨1, by decide⟩
  no_divisor := no_divisor_of_primes [3, 5] rfl (by norm_num) (by decide)

theorem param5_maximal : param5.MaximalAbout 0x15 0x3 where
  adds := ⟨1, by decide⟩
  no_divisor := no_divisor_of_primes [31] rfl (by norm_num) (by decide)

theorem param9_maximal : param9.MaximalAbout 0x12A 0x60 where
  adds := ⟨1, by decide⟩
  no_divisor := no_divisor_of_primes [7, 73] rfl (by norm_num) (by decide +kernel)

theorem param17_maximal : param17.MaximalAbout 0x09224 0x100 where
  adds := ⟨3, by decide⟩
  no_divisor := no_divisor_of_primes [131071] rfl (by norm_num) (by decide)

/-- The parameter sets of `40_polynomial.md` R81, each with its fixed point. -/
theorem exists_maximalAbout : ∀ q ∈ [(param4, 0x8), (param5, 0x15), (param9, 0x12A), (param17, 0x09224)],
    ∃ w, q.1.MaximalAbout q.2 w := by
  intro q hq
  simp only [List.mem_cons, List.not_mem_nil, or_false] at hq
  obtain rfl | rfl | rfl | rfl := hq
  · exact ⟨_, param4_maximal⟩
  · exact ⟨_, param5_maximal⟩
  · exact ⟨_, param9_maximal⟩
  · exact ⟨_, param17_maximal⟩

/-- Settles O15: the period of the seed is `2^n - 1`, so a period's states are distinct, and only the fixed point is missing. -/
theorem lfsrSequencesHaveMaximalLength : Obligations.LfsrSequencesHaveMaximalLength := by
  refine ⟨rfl, fun q hq => ?_⟩
  obtain ⟨w, h⟩ := exists_maximalAbout q hq
  refine ⟨fun _ => rfl, fun i j hij hj heq => ?_, ?_, h.fixed, fun x hx => ⟨fun hmiss => ?_, ?_⟩⟩
  · exact hij.ne (lfsrState_injOn h (Finset.mem_coe.2 (Finset.mem_range.2 (hij.trans hj)))
      (Finset.mem_coe.2 (Finset.mem_range.2 hj)) heq)
  · have four_le : 2 ^ 2 ≤ 2 ^ q.1.length := Nat.pow_le_pow_right (by decide) h.bits
    have whole : 2 ^ q.1.length - 2 + 1 = 2 ^ q.1.length - 1 := by omega
    change lfsrState q.1 (2 ^ q.1.length - 2 + 1) = 0
    rw [whole, lfsrState_eq_iterate]
    exact seed_isPeriodicPt h
  · by_contra hne
    obtain ⟨i, hi⟩ := lfsrState_visits h hx hne
    exact hmiss i hi
  · rintro rfl
    exact lfsrState_ne_fixed h

end Sys2Proof.Machine
end

section
/-!
PROOFS. `Configure` and the register writes that call it (`41_channel.md` R101 to R118): each is the formula of the rules on one
channel record, and whatever is performed, the derived fields stay those of the current registers (R128).
-/

namespace Sys2Proof.Machine

/-! ### `Configure` is the formula of the rules -/

/-- The model's divisor is the rule's function of the register bytes (`41_channel.md` R101). -/
theorem divisorOf_eq_reference (s : State) (c : Ch) :
    divisorOf s c = Reference.divisor s.cfg s.audctl s.ch1.audf s.ch2.audf s.ch3.audf s.ch4.audf c := by
  cases c <;> rfl

/-- A counter clamped to a divisor (`41_channel.md` R105). -/
theorem clamped_counter_eq (d : Nat) (t : Ticks) :
    (if (Ticks.at d).below t then Ticks.at d else t) = match t with
      | .at n => .at (min n d)
      | .never => .at d := by
  obtain n | - := t
  · by_cases h : d < n
    · simp [Ticks.below, h, Nat.min_eq_right h.le]
    · simp [Ticks.below, h, Nat.min_eq_left (Nat.not_lt.1 h)]
  · rfl

theorem audibleOf_eq (s : State) (c : Ch) :
    audibleOf s c = ((s.ch c).audc.toNat % 16 != 0 && !(s.cfg.optInaudible && (s.ch c).audc.getLsbD 5 &&
      decide (divisorOf s c < s.cfg.clock * 256 / s.cfg.sampleRate / 256))) := by
  rw [audibleOf, Config.tps, Config.step248, Nat.shiftRight_eq_div_pow, audcVol, audcPure]

/-- `Configure(c)` replaces the record of channel c by the rule's (`41_channel.md` R108), and touches nothing else. -/
theorem configure_eq (c : Ch) (s : State) :
    configure c s = s.setCh c (Reference.configured s.cfg (divisorOf s c) (s.ch c)) := by
  unfold configure Reference.configured
  simp only [← audibleOf_eq, clamped_counter_eq, volumeOf, audcVol, Nat.shiftRight_eq_div_pow, pow_one]
  split
  · next h =>
    have inaudible : audibleOf s c = false := by simp_all
    rw [inaudible]
  · rfl

section
variable (g : Config) (d : Nat) (k : Channel)

@[simp] theorem configured_audf : (Reference.configured g d k).audf = k.audf := by
  unfold Reference.configured
  simp only
  split <;> rfl

@[simp] theorem configured_audc : (Reference.configured g d k).audc = k.audc := by
  unfold Reference.configured
  simp only
  split <;> rfl

/-- Configuring a record again with the same divisor changes nothing: the counter is clamped already, and the volume is
computed from the register, not from the stored volume. -/
theorem configured_configured :
    Reference.configured g d (Reference.configured g d k) = Reference.configured g d k := by
  rw [Reference.configured, configured_audc]
  unfold Reference.configured
  simp only
  split
  · rfl
  · cases k.counter <;> simp

end

/-- The divisors are decided by the configuration, AUDCTL and the four AUDF bytes. -/
theorem divisorOf_congr {s t : State} (hcfg : t.cfg = s.cfg) (hctl : t.audctl = s.audctl)
    (haudf : ∀ c, (t.ch c).audf = (s.ch c).audf) (c : Ch) : divisorOf t c = divisorOf s c := by
  have h1 : t.ch1.audf = s.ch1.audf := haudf .ch1
  have h2 : t.ch2.audf = s.ch2.audf := haudf .ch2
  have h3 : t.ch3.audf = s.ch3.audf := haudf .ch3
  have h4 : t.ch4.audf = s.ch4.audf := haudf .ch4
  rw [divisorOf_eq_reference, divisorOf_eq_reference, hcfg, hctl, h1, h2, h3, h4]

/-- A channel record with the same AUDF byte leaves every divisor. -/
theorem divisorOf_setCh (s : State) (c : Ch) {k : Channel} (h : k.audf = (s.ch c).audf) (d : Ch) :
    divisorOf (s.setCh c k) d = divisorOf s d := by
  refine divisorOf_congr (State.setCh_cfg s c k) (State.setCh_audctl s c k) (fun e => ?_) d
  by_cases hec : e = c
  · rw [hec, State.setCh_ch, h]
  · rw [State.setCh_ch_ne s k hec]

@[simp] theorem divisorOf_configure (c : Ch) (s : State) (d : Ch) : divisorOf (configure c s) d = divisorOf s d := by
  rw [configure_eq, divisorOf_setCh s c (configured_audf _ _ _)]

@[simp] theorem configure_cfg (c : Ch) (s : State) : (configure c s).cfg = s.cfg := (configure_untimed c s).cfg

@[simp] theorem configure_audctl (c : Ch) (s : State) : (configure c s).audctl = s.audctl := by
  rw [configure_eq, State.setCh_audctl]

@[simp] theorem configure_ch (c : Ch) (s : State) :
    (configure c s).ch c = Reference.configured s.cfg (divisorOf s c) (s.ch c) := by
  rw [configure_eq, State.setCh_ch]

theorem configure_ch_ne (s : State) {c d : Ch} (h : d ≠ c) : (configure c s).ch d = s.ch d := by
  rw [configure_eq, State.setCh_ch_ne s _ h]

/-- Settles O22: the second `Configure` finds the divisor of the first, and the record configured with it. -/
theorem configureTwiceIsConfigureOnce : Obligations.ConfigureTwiceIsConfigureOnce := by
  intro c s
  rw [configure_eq c (configure c s), configure_cfg, divisorOf_configure, configure_ch, configured_configured, configure_eq,
    State.setCh_setCh]

/-! ### The register writes -/

/-- Replacing a channel record moves no deadline. -/
theorem State.Settled.setCh {s : State} (h : s.Settled) (c : Ch) (k : Channel) : (s.setCh c k).Settled := by
  cases c <;> exact h

/-- After a channel record is replaced in a settled state, the closing `Settle` of the write finds nothing due. -/
theorem settle_setCh_of_settled {s : State} (h : s.Settled) (c : Ch) (k : Channel) : settle (s.setCh c k) = s.setCh c k :=
  settle_of_settled (h.setCh c k)

/-- Storing an AUDF byte and configuring its channel replaces that channel's record alone. -/
theorem configure_setAudf (c : Ch) (v : Byte) (s : State) : configure c (setAudf c v s) =
    s.setCh c (Reference.configured s.cfg (divisorOf (setAudf c v s) c) { s.ch c with audf := v }) := by
  rw [configure_eq, setAudf, State.setCh_cfg, State.setCh_ch, State.setCh_setCh]

/-- Storing an AUDC byte and configuring its channel replaces that channel's record alone; no divisor depends on AUDC. -/
theorem configure_setAudc (c : Ch) (v : Byte) (s : State) : configure c (setAudc c v s) =
    s.setCh c (Reference.configured s.cfg (divisorOf s c) { s.ch c with audc := v }) := by
  have hd : divisorOf (setAudc c v s) c = divisorOf s c := divisorOf_setCh (k := { s.ch c with audc := v }) s c rfl c
  rw [configure_eq, hd, setAudc, State.setCh_cfg, State.setCh_ch, State.setCh_setCh]

/-- The effect of an AUDF write on a pair: channel `c` is written, and `d` is configured with it where the pair is joined
(`41_channel.md` R110, R112). -/
def writeJoinedAudf (c d : Ch) (joined : Byte → Bool) (v : Byte) (s : State) : State :=
  let t := configure c (setAudf c v s)
  if joined t.audctl then configure d t else t

theorem exec_wAudf1 (v : Byte) (s : State) :
    exec (.wAudf1 v) s = .next (settle (writeJoinedAudf .ch1 .ch2 audctlJoin12 v s)) := rfl

theorem exec_wAudf3 (v : Byte) (s : State) :
    exec (.wAudf3 v) s = .next (settle (writeJoinedAudf .ch3 .ch4 audctlJoin34 v s)) := rfl

theorem writeJoinedAudf_of_joined {joined : Byte → Bool} {s : State} (h : joined s.audctl = true) (c d : Ch) (v : Byte) :
    writeJoinedAudf c d joined v s = configure d (configure c (setAudf c v s)) := by
  have hctl : (setAudf c v s).audctl = s.audctl := State.setCh_audctl s c _
  rw [writeJoinedAudf]
  simp only [configure_audctl, hctl, h, if_true]

theorem writeJoinedAudf_of_not_joined {joined : Byte → Bool} {s : State} (h : joined s.audctl = false) (c d : Ch) (v : Byte) :
    writeJoinedAudf c d joined v s = configure c (setAudf c v s) := by
  have hctl : (setAudf c v s).audctl = s.audctl := State.setCh_audctl s c _
  rw [writeJoinedAudf]
  simp [hctl, h]

/-- An AUDF write replaces the record of its channel and, where the pair is joined, of the partner. -/
theorem writeJoinedAudf_eq {c d : Ch} (hne : d ≠ c) (joined : Byte → Bool) (v : Byte) (s : State) :
    writeJoinedAudf c d joined v s =
      (s.setCh c (Reference.configured s.cfg (divisorOf (setAudf c v s) c) { s.ch c with audf := v })).setCh d
        (if joined s.audctl then Reference.configured s.cfg (divisorOf (setAudf c v s) d) (s.ch d) else s.ch d) := by
  have hcfg : (setAudf c v s).cfg = s.cfg := State.setCh_cfg s c _
  have partner : (configure c (setAudf c v s)).ch d = s.ch d := by
    rw [configure_ch_ne _ hne, setAudf, State.setCh_ch_ne s _ hne]
  rw [← configure_setAudf]
  cases h : joined s.audctl with
  | true => rw [writeJoinedAudf_of_joined h, configure_eq d, configure_cfg, hcfg, divisorOf_configure, partner, if_pos rfl]
  | false => rw [writeJoinedAudf_of_not_joined h, if_neg Bool.false_ne_true, ← partner, State.setCh_self]

/-- Settles O19: the divisors behind the written record are the rule's on the new byte. -/
theorem audfWritesReconfigure : Obligations.AudfWritesReconfigure := by
  intro s v hs
  refine ⟨?_, ?_, ?_, ?_⟩
  · rw [exec_wAudf1, writeJoinedAudf_eq (by decide), settle_setCh_of_settled (hs.setCh _ _), divisorOf_eq_reference,
      divisorOf_eq_reference]
    rfl
  · rw [exec, execWAudf2, regWriteWith, configure_setAudf, settle_setCh_of_settled hs, divisorOf_eq_reference]
    rfl
  · rw [exec_wAudf3, writeJoinedAudf_eq (by decide), settle_setCh_of_settled (hs.setCh _ _), divisorOf_eq_reference,
      divisorOf_eq_reference]
    rfl
  · rw [exec, execWAudf4, regWriteWith, configure_setAudf, settle_setCh_of_settled hs, divisorOf_eq_reference]
    rfl

/-- Settles O20. -/
theorem audcWritesReconfigure : Obligations.AudcWritesReconfigure := by
  intro s v hs
  have write (c : Ch) : settle (configure c (setAudc c v s)) = s.setCh c (Reference.configured s.cfg
      (Reference.divisor s.cfg s.audctl s.ch1.audf s.ch2.audf s.ch3.audf s.ch4.audf c) { s.ch c with audc := v }) := by
    rw [configure_setAudc, settle_setCh_of_settled hs, divisorOf_eq_reference]
  refine ⟨?_, ?_, ?_, ?_⟩
  · rw [exec, execWAudc1, regWriteWith, write]
    rfl
  · rw [exec, execWAudc2, regWriteWith, write]
    rfl
  · rw [exec, execWAudc3, regWriteWith, write]
    rfl
  · rw [exec, execWAudc4, regWriteWith, write]
    rfl

/-- The configurations of all four channels do not disturb one another: each replaces its own record by the rule's. -/
theorem foldl_configure_channelOrder (s : State) : channelOrder.foldl (fun s c => configure c s) s = { s with
    ch1 := Reference.configured s.cfg (divisorOf s .ch1) s.ch1
    ch2 := Reference.configured s.cfg (divisorOf s .ch2) s.ch2
    ch3 := Reference.configured s.cfg (divisorOf s .ch3) s.ch3
    ch4 := Reference.configured s.cfg (divisorOf s .ch4) s.ch4 } := by
  have step (c : Ch) (t : State) (hcfg : t.cfg = s.cfg) (hd : divisorOf t c = divisorOf s c) (hch : t.ch c = s.ch c) :
      configure c t = t.setCh c (Reference.configured s.cfg (divisorOf s c) (s.ch c)) := by
    rw [configure_eq, hcfg, hd, hch]
  simp only [channelOrder, List.foldl]
  rw [step .ch4, step .ch3, step .ch2, step .ch1 s rfl rfl rfl]
  · rfl
  all_goals simp (disch := decide) [configure_ch_ne, -State.ch_ch1, -State.ch_ch2, -State.ch_ch3, -State.ch_ch4]

/-- Settles O21: the divisors behind the four records are the rule's on the new AUDCTL byte. -/
theorem audctlWriteReconfiguresAllChannels : Obligations.AudctlWriteReconfiguresAllChannels := by
  intro s v hs
  rw [exec, execWAudctl, regWriteWith, foldl_configure_channelOrder, settle_of_settled (by exact hs), divisorOf_eq_reference,
    divisorOf_eq_reference, divisorOf_eq_reference, divisorOf_eq_reference]

end Sys2Proof.Machine
end

section
/-!
PROOFS. What the registers decide (`41_channel.md` R101 to R103, R128): after any operations divisor, volume and audible are those
of the current register bytes; the range of the divisors (R101); a volume of 0 adds nothing to the mix (R125).
-/

namespace Sys2Proof.Machine

/-! ### The fields that `Configure` derives -/

/-- Divisor, volume and audible: the fields that `Configure` recomputes from the registers alone. -/
def Channel.derived (k : Channel) : Ticks × Nat × Bool := (k.divisor, k.volume, k.audible)

/-- Of the record it configures the rule reads only AUDC for the derived fields. -/
theorem derived_configured_congr (g : Config) (d : Nat) {k l : Channel} (h : l.audc = k.audc) :
    (Reference.configured g d l).derived = (Reference.configured g d k).derived := by
  unfold Reference.configured
  simp only [h]
  split <;> rfl

/-- The derived fields of channel c are those of the current registers. -/
def ConfiguredAt (s : State) (c : Ch) : Prop :=
  (s.ch c).derived = (Reference.configured s.cfg (divisorOf s c) (s.ch c)).derived

/-- The derived fields of every channel are those of the current registers (`41_channel.md` R128). -/
def Configured (s : State) : Prop := ∀ c, ConfiguredAt s c

/-- The derived fields by the model's own functions (`41_channel.md` R101 to R103, halved under the option by R104). -/
theorem derived_configured (s : State) (c : Ch) : (Reference.configured s.cfg (divisorOf s c) (s.ch c)).derived =
    (.at (divisorOf s c), if s.cfg.optInaudible && !audibleOf s c then volumeOf s c >>> 1 else volumeOf s c,
      audibleOf s c) := by
  unfold Reference.configured
  simp only [← audibleOf_eq, volumeOf, audcVol, Nat.shiftRight_eq_div_pow, pow_one, Channel.derived]
  split
  · next h => simp_all
  · rfl

/-- The invariant of `10_state.md` R34 says, among the rest, that the channels are configured. -/
theorem State.Inv.configured {s : State} (h : s.Inv) : Configured s := by
  intro c
  rw [ConfiguredAt, derived_configured, ← h.audibleFormula, ← h.volumeFormula, ← h.divisorFormula]
  rfl

/-! ### What leaves the channel settings alone -/

/-- The configuration, AUDCTL and the channels without their counters and outputs. -/
def channelSettings (s : State) : Config × Byte × (Ch → Channel) :=
  (s.cfg, s.audctl, fun c => { s.ch c with counter := .never, output := false })

theorem channelSettings_eq_iff {s t : State} : channelSettings t = channelSettings s ↔
    t.cfg = s.cfg ∧ t.audctl = s.audctl ∧ ∀ c, (t.ch c).audf = (s.ch c).audf ∧ (t.ch c).audc = (s.ch c).audc ∧
      (t.ch c).divisor = (s.ch c).divisor ∧ (t.ch c).volume = (s.ch c).volume ∧ (t.ch c).audible = (s.ch c).audible := by
  simp [channelSettings, funext_iff]

theorem SameSettings.channelSettings_eq {s t : State} (h : SameSettings s t) : channelSettings t = channelSettings s :=
  channelSettings_eq_iff.2 ⟨h.cfg, h.audctl, h.channels⟩

/-- Whether the channels are configured is a matter of their settings. -/
theorem Configured.of_channelSettings_eq {s t : State} (hs : Configured s) (h : channelSettings t = channelSettings s) :
    Configured t := by
  obtain ⟨hcfg, hctl, hch⟩ := channelSettings_eq_iff.1 h
  intro c
  obtain ⟨-, hc, hd, hv, ha⟩ := hch c
  have own : (t.ch c).derived = (s.ch c).derived := by rw [Channel.derived, hd, hv, ha, Channel.derived]
  rw [ConfiguredAt, own, divisorOf_congr hcfg hctl fun e => (hch e).1, hcfg, derived_configured_congr _ _ hc]
  exact hs c

@[simp] theorem channelSettings_settle (s : State) : channelSettings (settle s) = channelSettings s :=
  (settle_settings s).channelSettings_eq

theorem channelSettings_channelEvent (c : Ch) (s : State) : channelSettings (channelEvent c s) = channelSettings s := by
  obtain ⟨n1, n2, n3, n4, o1, o2, o3, o4, h⟩ := channelEvent_frame c s
  rw [h, channelSettings_eq_iff]
  exact ⟨rfl, rfl, fun d => by cases d <;> exact ⟨rfl, rfl, rfl, rfl, rfl⟩⟩

theorem channelSettings_timerExpiry (k : TimerId) (s : State) : channelSettings (timerExpiry k s) = channelSettings s := by
  obtain ⟨d, q, l, h⟩ := timerExpiry_frame k s
  rw [h]
  cases k <;> rfl

theorem channelSettings_serialReady (s : State) : channelSettings (serialReady s) = channelSettings s := by
  obtain ⟨d, q, l, h⟩ := serialReady_frame s
  rw [h]
  rfl

theorem channelSettings_serialComplete (s : State) : channelSettings (serialComplete s) = channelSettings s := by
  obtain ⟨d, k, q, l, h⟩ := serialComplete_frame s
  rw [h]
  rfl

theorem channelSettings_potComplete (i : Fin 8) (s : State) : channelSettings (potComplete i s) = channelSettings s := by
  obtain ⟨a, p, h⟩ := potComplete_frame i s
  rw [h]
  rfl

theorem channelSettings_potgo (s : State) : channelSettings (potgo s) = channelSettings s := by
  obtain ⟨p, l, h⟩ := potgo_frame s
  rw [h]
  rfl

theorem channelSettings_rearmAll (s : State) : channelSettings (rearmAll s) = channelSettings s :=
  channelSettings_eq_iff.2 ⟨rfl, rfl, fun d => by cases d <;> exact ⟨rfl, rfl, rfl, rfl, rfl⟩⟩

theorem channelSettings_randomAdvance (s : State) : channelSettings (randomAdvance s) = channelSettings s := by
  rw [randomAdvance_eq]
  rfl

theorem channelSettings_askAllpot (s : State) : channelSettings (askAllpot s).2 = channelSettings s := by
  unfold askAllpot
  split <;> rfl

theorem channelSettings_askSerial (s : State) : channelSettings (askSerial s).2 = channelSettings s := by
  unfold askSerial
  split <;> rfl

/-! ### The writes configure what they change -/

/-- Configuring channel c configures it, and leaves the others as they were. -/
theorem configuredAt_configure (c d : Ch) (s : State) : ConfiguredAt (configure c s) d ↔ d = c ∨ ConfiguredAt s d := by
  by_cases h : d = c
  · subst h
    simp [ConfiguredAt, configured_configured]
  · simp [ConfiguredAt, configure_ch_ne s h, h]

/-- Storing an AUDC byte leaves the other channels configured. -/
theorem ConfiguredAt.setAudc {s : State} {c d : Ch} (hs : ConfiguredAt s d) (hne : d ≠ c) (v : Byte) :
    ConfiguredAt (setAudc c v s) d := by
  have hd : divisorOf (Machine.setAudc c v s) d = divisorOf s d :=
    divisorOf_setCh (k := { s.ch c with audc := v }) s c rfl d
  have hch : (Machine.setAudc c v s).ch d = s.ch d := State.setCh_ch_ne s _ hne
  have hcfg : (Machine.setAudc c v s).cfg = s.cfg := State.setCh_cfg s c _
  rwa [ConfiguredAt, hd, hch, hcfg]

/-- The divisor of `d` is computed from the AUDF byte of `c` (`41_channel.md` R101). -/
def readsAudf (audctl : Byte) (c d : Ch) : Prop :=
  d = c ∨ (c = .ch1 ∧ d = .ch2 ∧ audctlJoin12 audctl = true) ∨ (c = .ch3 ∧ d = .ch4 ∧ audctlJoin34 audctl = true)

/-- Storing an AUDF byte changes no divisor that is not computed from it. -/
theorem divisorOf_setAudf {s : State} {c d : Ch} (h : ¬ readsAudf s.audctl c d) (v : Byte) :
    divisorOf (setAudf c v s) d = divisorOf s d := by
  cases c <;> cases d <;> simp only [readsAudf, true_or, not_true_eq_false] at h
  case ch1.ch2 =>
    have alone : audctlJoin12 s.audctl = false := by simpa using h
    simp only [divisorOf, rawDivisor, setAudf, State.setCh_audctl, alone]
    rfl
  case ch3.ch4 =>
    have alone : audctlJoin34 s.audctl = false := by simpa using h
    simp only [divisorOf, rawDivisor, setAudf, State.setCh_audctl, alone]
    rfl
  all_goals rfl

/-- Storing an AUDF byte leaves the channels configured whose divisor is not computed from it. -/
theorem ConfiguredAt.setAudf {s : State} {c d : Ch} (hs : ConfiguredAt s d) (h : ¬ readsAudf s.audctl c d) (v : Byte) :
    ConfiguredAt (setAudf c v s) d := by
  have hch : (Machine.setAudf c v s).ch d = s.ch d := State.setCh_ch_ne s _ fun e => h (.inl e)
  have hcfg : (Machine.setAudf c v s).cfg = s.cfg := State.setCh_cfg s c _
  rwa [ConfiguredAt, divisorOf_setAudf h, hch, hcfg]

/-- An AUDC write configures the channel that it changes. -/
theorem configured_write_audc {s : State} (hs : Configured s) (c : Ch) (v : Byte) : Configured (configure c (setAudc c v s)) := by
  intro d
  by_cases h : d = c
  · exact (configuredAt_configure c d _).2 (.inl h)
  · exact (configuredAt_configure c d _).2 (.inr ((hs d).setAudc h v))

/-- An AUDF write configures all that it changes, when no other divisor reads the byte. -/
theorem configured_write_audf {s : State} (hs : Configured s) {c : Ch} (hreads : ∀ d, readsAudf s.audctl c d → d = c)
    (v : Byte) : Configured (configure c (setAudf c v s)) := by
  intro d
  by_cases h : readsAudf s.audctl c d
  · exact (configuredAt_configure c d _).2 (.inl (hreads d h))
  · exact (configuredAt_configure c d _).2 (.inr ((hs d).setAudf h v))

/-- After the AUDCTL write all channels are configured, whatever they were before. -/
theorem configured_foldl_configure (s : State) : Configured (channelOrder.foldl (fun s c => configure c s) s) := by
  intro d
  simp only [channelOrder, List.foldl, configuredAt_configure]
  cases d <;> simp

/-- An AUDF write configures all that it changes, when only the partner `d` of a joined pair reads the byte beside `c`. -/
theorem configured_writeJoinedAudf {s : State} (hs : Configured s) {c d : Ch} {joined : Byte → Bool}
    (hreads : ∀ e, readsAudf s.audctl c e → e = c ∨ (e = d ∧ joined s.audctl = true)) (v : Byte) :
    Configured (writeJoinedAudf c d joined v s) := by
  intro e
  have stays (h : ¬ readsAudf s.audctl c e) : ConfiguredAt (configure c (setAudf c v s)) e :=
    (configuredAt_configure c e _).2 (.inr ((hs e).setAudf h v))
  have own (h : e = c) : ConfiguredAt (configure c (setAudf c v s)) e := (configuredAt_configure c e _).2 (.inl h)
  cases hj : joined s.audctl with
  | true =>
    rw [writeJoinedAudf_of_joined hj, configuredAt_configure]
    by_cases h : readsAudf s.audctl c e
    · exact (hreads e h).elim (fun hc => .inr (own hc)) fun hd => .inl hd.1
    · exact .inr (stays h)
  | false =>
    rw [writeJoinedAudf_of_not_joined hj]
    by_cases h : readsAudf s.audctl c e
    · exact (hreads e h).elim own fun hd => absurd (hj.symm.trans hd.2) Bool.false_ne_true
    · exact stays h

/-- At reset the derived fields are those of the register byte 0x00 (`10_state.md` R35). -/
theorem configured_resetFor (g : Config) (e : HostSide) : Configured (State.resetFor g e) := by
  intro c
  rw [ConfiguredAt, derived_configured]
  cases c <;> simp [State.resetFor, Channel.reset, Channel.derived, divisorOf, rawDivisor, volumeOf, audibleOf, audcVol,
    audctlCh1Hi, audctlCh3Hi, audctlJoin12, audctlJoin34, audctl15k, slowDivider]

/-! ### Every operation keeps the channels configured -/

theorem Configured.of_regWriteWith {op : State → State} {s t : State}
    (h : Host.Outcome.next (φ := Fault) (ρ := Refusal) (regWriteWith op s) = .next t) (hs : Configured (op s)) :
    Configured t := by
  obtain rfl := Host.Outcome.next.inj h
  exact hs.of_channelSettings_eq (channelSettings_settle _)

/-- A bus write that leaves the settings of the channels keeps them configured. -/
theorem Configured.of_other_write {op : State → State} {s t : State} (hs : Configured s)
    (h : Host.Outcome.next (φ := Fault) (ρ := Refusal) (regWriteWith op s) = .next t)
    (keep : channelSettings (op s) = channelSettings s) : Configured t :=
  of_regWriteWith h (hs.of_channelSettings_eq keep)

theorem Configured.of_returnByte {b : Byte} {s u t : State} (hs : Configured s)
    (h : Host.Outcome.next (φ := Fault) (ρ := Refusal) (returnByte b u) = .next t)
    (keep : channelSettings u = channelSettings s) : Configured t := by
  obtain rfl := Host.Outcome.next.inj h
  exact hs.of_channelSettings_eq keep

theorem channelSettings_execBuild {n : Nat} {slice : Slice} {s t : State} (h : execBuild n slice s = .next t) :
    channelSettings t = channelSettings s := by
  unfold execBuild at h
  split at h
  · exact Host.Outcome.next.inj h ▸ rfl
  · cases h

/-- Every operation keeps the channels configured: the register writes by their `Configure`, `RESET` by its table, the others
by leaving the settings alone. -/
theorem exec_configured {i : Instr} {s t : State} (hs : Configured s) (h : exec i s = .next t) : Configured t := by
  have event {u : State} (keep : channelSettings u = channelSettings s)
      (h : Host.Outcome.next (φ := Fault) (ρ := Refusal) u = .next t) : Configured t :=
    Host.Outcome.next.inj h ▸ hs.of_channelSettings_eq keep
  cases i with
  | wAudf1 v =>
    exact .of_regWriteWith (op := writeJoinedAudf .ch1 .ch2 audctlJoin12 v) h
      (configured_writeJoinedAudf hs (by simp [readsAudf]) v)
  | wAudf3 v =>
    exact .of_regWriteWith (op := writeJoinedAudf .ch3 .ch4 audctlJoin34 v) h
      (configured_writeJoinedAudf hs (by simp [readsAudf]) v)
  | wAudf2 v | wAudf4 v => exact .of_regWriteWith h (configured_write_audf hs (by simp [readsAudf]) v)
  | wAudc1 v | wAudc2 v | wAudc3 v | wAudc4 v => exact .of_regWriteWith h (configured_write_audc hs _ v)
  | wAudctl v => exact .of_regWriteWith h (configured_foldl_configure { s with audctl := v })
  | wPotgo v => exact hs.of_other_write h (channelSettings_potgo s)
  | wStimer v => exact hs.of_other_write h (channelSettings_rearmAll s)
  | wSkrest v | wUnmapped v | wSerout v | wIrqen v | wSkctl v | wOutOfRange off v => exact hs.of_other_write h rfl
  | rPot0 | rPot1 | rPot2 | rPot3 | rPot4 | rPot5 | rPot6 | rPot7 | rKbcode | rUnmappedB | rUnmappedC | rIrqst | rSkstat
  | rOutOfRange off => exact hs.of_returnByte h rfl
  | rAllpot => exact hs.of_returnByte h (channelSettings_askAllpot s)
  | rSerin => exact hs.of_returnByte h (channelSettings_askSerial s)
  | rRandom => exact hs.of_returnByte h (channelSettings_randomAdvance s)
  | evCh1 | evCh2 | evCh3 | evCh4 => exact event (channelSettings_channelEvent _ s) h
  | evSample => exact event (sampleEvent_settings s).channelSettings_eq h
  | evT1 | evT2 | evT4 => exact event (channelSettings_timerExpiry _ s) h
  | evSerReady => exact event (channelSettings_serialReady s) h
  | evSerComplete => exact event (channelSettings_serialComplete s) h
  | evPot0 | evPot1 | evPot2 | evPot3 | evPot4 | evPot5 | evPot6 | evPot7 => exact event (channelSettings_potComplete _ s) h
  | render n => exact hs.of_channelSettings_eq (exec_render_settings h).channelSettings_eq
  | build n slice => exact hs.of_channelSettings_eq (channelSettings_execBuild h)
  | reset =>
    obtain ⟨-, rfl⟩ := exec_reset_next h
    exact configured_resetFor _ _

/-- Over any operations the channels stay configured, and the configuration is the one held. -/
theorem execAll_configured {l : List Instr} {s t : State} (hs : Configured s) (h : execAll l s = .next t) :
    Configured t ∧ t.cfg = s.cfg := by
  induction l generalizing s with
  | nil =>
    obtain rfl := Host.Outcome.next.inj h
    exact ⟨hs, rfl⟩
  | cons i l ih =>
    obtain ⟨u, hu, hrest⟩ := execAll_cons_next h
    obtain ⟨ht, hcfg⟩ := ih (exec_configured hs hu) hrest
    exact ⟨ht, hcfg.trans (exec_inbox_cfg hu).2⟩

/-- Settles O23: at the end of both runs the derived fields are those of the registers, which are the same. -/
theorem configurationIgnoresWriteOrder : Obligations.ConfigurationIgnoresWriteOrder := by
  intro s t u l m hinv ht hu hctl hregs c
  obtain ⟨hct, htcfg⟩ := execAll_configured hinv.configured ht
  obtain ⟨hcu, hucfg⟩ := execAll_configured hinv.configured hu
  have hcfg : t.cfg = u.cfg := htcfg.trans hucfg.symm
  have hd : divisorOf t c = divisorOf u c := divisorOf_congr hcfg hctl (fun e => (hregs e).1) c
  have same : (t.ch c).derived = (u.ch c).derived := by
    rw [hct c, hcu c, hcfg, hd, derived_configured_congr _ _ (hregs c).2]
  simpa [Channel.derived] using same

/-! ### The range of the divisors, and a volume of 0 -/

/-- A divisor on the slow clock, for a reload value of at most 16 bits. -/
theorem slow_divisor_bounds {m x : Nat} (hm : 28 ≤ m ∧ m ≤ 114) (hx : x ≤ 65535) : 4 ≤ (x + 1) * m ∧ (x + 1) * m ≤ 7471104 :=
  ⟨le_trans (by omega) (Nat.mul_le_mul (Nat.le_add_left 1 x) hm.1),
    (Nat.mul_le_mul (Nat.succ_le_succ hx) hm.2).trans (by omega)⟩

/-- Settles O24, by the cases of the formula: a reload value and a constant on the fast clock, a multiple of the divider on
the slow clock. -/
theorem divisorsStayInTheirRange : Obligations.DivisorsStayInTheirRange := by
  intro s c hlo hhi hjoined h64 h15
  have hm : 28 ≤ slowDivider s ∧ slowDivider s ≤ 114 := by
    rw [slowDivider, h15, h64]
    split <;> omega
  have f1 := s.ch1.audf.isLt
  have f2 := s.ch2.audf.isLt
  have f3 := s.ch3.audf.isLt
  have f4 := s.ch4.audf.isLt
  cases c with
  | ch1 | ch3 =>
    rw [rawDivisor, hhi, hlo]
    split
    · omega
    · exact slow_divisor_bounds hm (by omega)
  | ch2 | ch4 =>
    rw [rawDivisor, hjoined, hlo]
    simp only [joined12, joined34]
    split
    · split
      · omega
      · exact slow_divisor_bounds hm (by omega)
    · exact slow_divisor_bounds hm (by omega)

/-- Settles O28: a volume field of 0 gives a volume of 0, halved or not. -/
theorem silentChannelsContributeNothing : Obligations.SilentChannelsContributeNothing := by
  intro s c hinv hvol
  have register : volumeOf s c = 0 := by rw [volumeOf, audcVol, hvol, Nat.zero_mul]
  have volume : (s.ch c).volume = 0 := by rw [hinv.volumeFormula, register, Nat.zero_shiftRight, ite_self]
  rw [contribution, volume, ite_self]

end Sys2Proof.Machine
end

section
/-!
PROOFS. The channel events (`41_channel.md` R119 to R124): the whole next state of each, and what the filter link forces.
-/

namespace Sys2Proof.Machine

/-! ### An event is the rule's -/

theorem gateEntry_eq (p : PolyParam) (i : Nat) : gateEntry p i = (lfsrState p i % 2 == 1) := by
  rw [gateEntry, Nat.testBit_zero, beq_eq_decide]

/-- A channel that toggles where its output differs from the bit takes the bit. -/
theorem toggle_to_bit (output bit : Bool) : (if (output != bit) = true then !output else output) = bit := by
  cases output <;> cases bit <;> rfl

/-- Where the 5-bit gate lets the event pass the mode decides: a pure tone flips, another takes the current bit of its table. -/
theorem mode_output_eq (s : State) (c : Ch) : (if modeToggles s c then !(s.ch c).output else (s.ch c).output) =
    if (s.ch c).audc.getLsbD 5 then !(s.ch c).output
    else if (s.ch c).audc.getLsbD 6 then gateEntry param4 s.p4
    else if s.audctl.getLsbD 7 then gateEntry param9 s.p9
    else gateEntry param17 s.p17 := by
  by_cases hpure : (s.ch c).audc.getLsbD 5 = true
  · have mode : gateMode (s.ch c).audc s.audctl = .pure := if_pos hpure
    rw [modeToggles, mode, if_pos hpure]
    rfl
  have gated : gateMode (s.ch c).audc s.audctl =
    if audcPoly4 (s.ch c).audc then .poly4 else if audctlPoly9 s.audctl then .poly9 else .poly17 := if_neg hpure
  by_cases hpoly4 : (s.ch c).audc.getLsbD 6 = true
  · have mode := gated.trans (if_pos hpoly4)
    rw [modeToggles, mode, if_neg hpure, if_pos hpoly4]
    exact toggle_to_bit _ _
  by_cases hpoly9 : s.audctl.getLsbD 7 = true
  · have mode := (gated.trans (if_neg hpoly4)).trans (if_pos hpoly9)
    rw [modeToggles, mode, if_neg hpure, if_neg hpoly4, if_pos hpoly9]
    exact toggle_to_bit _ _
  · have mode := (gated.trans (if_neg hpoly4)).trans (if_neg hpoly9)
    rw [modeToggles, mode, if_neg hpure, if_neg hpoly4, if_neg hpoly9]
    exact toggle_to_bit _ _

/-- The toggle decision gives the level of the rule's table (`41_channel.md` R119). -/
theorem toggled_output_eq (s : State) (c : Ch) :
    (if toggleDecision s c then !(s.ch c).output else (s.ch c).output) = Reference.outputAfter s (s.ch c) := by
  simp only [Reference.outputAfter, ← gateEntry_eq, ← mode_output_eq]
  have gate : gate5Open s c = ((s.ch c).audc.getLsbD 7 || gateEntry param5 s.p5) := rfl
  rw [toggleDecision, gate]
  cases (s.ch c).audc.getLsbD 7 || gateEntry param5 s.p5 <;> simp

/-- Before the filter link an event replaces its channel's record by the rule's, and touches nothing else. -/
theorem reloadToggle_eq (c : Ch) (s : State) : reloadToggle c s = s.setCh c (Reference.fired s (s.ch c)) := by
  unfold reloadToggle Reference.fired
  simp only [toggled_output_eq]
  split <;> rfl

/-- The filter link of the pair CH1 and CH3 holds CH1 low while CH3 is high (`41_channel.md` R124). -/
theorem filterLink_pair13 {c : Ch} (hc : c = .ch1 ∨ c = .ch3) (s : State) : filterLink c s = { s with
    ch1 := { s.ch1 with output := s.ch1.output && !(s.audctl.getLsbD 2 && s.ch3.output) } } := by
  have link : filterLink c s =
      if audctlFilter1 s.audctl && s.ch3.output then { s with ch1 := { s.ch1 with output := false } } else s := by
    obtain rfl | rfl := hc <;> rfl
  rw [link, audctlFilter1]
  cases s.audctl.getLsbD 2 && s.ch3.output <;> simp

/-- The filter link of the pair CH2 and CH4 holds CH2 low while CH4 is high (`41_channel.md` R124). -/
theorem filterLink_pair24 {c : Ch} (hc : c = .ch2 ∨ c = .ch4) (s : State) : filterLink c s = { s with
    ch2 := { s.ch2 with output := s.ch2.output && !(s.audctl.getLsbD 1 && s.ch4.output) } } := by
  have link : filterLink c s =
      if audctlFilter2 s.audctl && s.ch4.output then { s with ch2 := { s.ch2 with output := false } } else s := by
    obtain rfl | rfl := hc <;> rfl
  rw [link, audctlFilter2]
  cases s.audctl.getLsbD 1 && s.ch4.output <;> simp

/-- A channel event is the rule's, its filter link included. -/
theorem channelEvent_eq (c : Ch) (s : State) : channelEvent c s = Reference.channelEvent c s := by
  rw [channelEvent, reloadToggle_eq]
  cases c with
  | ch1 | ch3 =>
    rw [filterLink_pair13 (by simp)]
    rfl
  | ch2 | ch4 =>
    rw [filterLink_pair24 (by simp)]
    rfl

/-- Settles O25. -/
theorem channelEventsReloadToggleAndFilter : Obligations.ChannelEventsReloadToggleAndFilter := by
  intro s
  simp only [← channelEvent_eq]
  exact ⟨rfl, rfl, rfl, rfl⟩

/-- An event ends with the filter link of its pair, here of CH1 and CH3. -/
theorem channelEvent_forces_ch1_low {c : Ch} (hc : c = .ch1 ∨ c = .ch3) {s : State} (hlink : s.audctl.getLsbD 2 = true)
    (hhigh : (channelEvent c s).ch3.output = true) : (channelEvent c s).ch1.output = false := by
  have hctl : (reloadToggle c s).audctl = s.audctl := by rw [reloadToggle_eq, State.setCh_audctl]
  rw [channelEvent, filterLink_pair13 hc, hctl, hlink] at hhigh ⊢
  simp only at hhigh ⊢
  rw [hhigh, Bool.and_self, Bool.not_true, Bool.and_false]

/-- An event ends with the filter link of its pair, here of CH2 and CH4. -/
theorem channelEvent_forces_ch2_low {c : Ch} (hc : c = .ch2 ∨ c = .ch4) {s : State} (hlink : s.audctl.getLsbD 1 = true)
    (hhigh : (channelEvent c s).ch4.output = true) : (channelEvent c s).ch2.output = false := by
  have hctl : (reloadToggle c s).audctl = s.audctl := by rw [reloadToggle_eq, State.setCh_audctl]
  rw [channelEvent, filterLink_pair24 hc, hctl, hlink] at hhigh ⊢
  simp only at hhigh ⊢
  rw [hhigh, Bool.and_self, Bool.not_true, Bool.and_false]

/-- Settles O26. -/
theorem filterLinkForcesTheFilteredChannelLow : Obligations.FilterLinkForcesTheFilteredChannelLow := by
  refine fun i s t h => ⟨fun hi hlink hhigh => ?_, fun hi hlink hhigh => ?_⟩
  · obtain rfl | rfl : i = .evCh1 ∨ i = .evCh3 := by simpa using hi
    all_goals
      obtain rfl := Host.Outcome.next.inj h
      exact channelEvent_forces_ch1_low (by simp) hlink hhigh
  · obtain rfl | rfl : i = .evCh2 ∨ i = .evCh4 := by simpa using hi
    all_goals
      obtain rfl := Host.Outcome.next.inj h
      exact channelEvent_forces_ch2_low (by simp) hlink hhigh

end Sys2Proof.Machine
end

section
/-!
PROOFS. The period of a pure tone (`41_channel.md` R127): one scheduler step never passes a channel event, so between two events the
counter and the time make up a fixed sum, and each event adds one divisor to it and flips the output.
-/

namespace Sys2Proof.Machine

/-! ### The channels over one scheduler step -/

/-- The bit of AUDCTL that links channel c to the partner that can hold it low (`41_channel.md` R124). -/
def linkBit (audctl : Byte) : Ch → Bool
  | .ch1 => audctl.getLsbD 2
  | .ch2 => audctl.getLsbD 1
  | .ch3 | .ch4 => false

/-- The event of another channel leaves a channel without a filter link as it is. -/
theorem channelEvent_ch_ne {s : State} {c d : Ch} (hlink : linkBit s.audctl c = false) (hne : c ≠ d) :
    (channelEvent d s).ch c = s.ch c := by
  rw [channelEvent_eq]
  cases d <;> cases c <;> simp_all [Reference.channelEvent, linkBit]

/-- The own event of a channel without a filter link. -/
theorem channelEvent_ch_self {s : State} {c : Ch} (hlink : linkBit s.audctl c = false) :
    (channelEvent c s).ch c = Reference.fired s (s.ch c) := by
  rw [channelEvent_eq]
  cases c <;> simp_all [Reference.channelEvent, linkBit]

theorem settle_ch (s : State) (c : Ch) : (settle s).ch c = s.ch c := by
  obtain ⟨d1, d2, d4, r, x, k, q, a, p, l, h⟩ := settle_frame s
  rw [h]
  cases c <;> rfl

theorem sampleEvent_ch (s : State) (c : Ch) : (sampleEvent s).ch c = s.ch c := by
  cases c <;> rfl

theorem advance_ch (e : Nat) (s : State) (c : Ch) :
    (advance e s).ch c = { s.ch c with counter := (s.ch c).counter.minus e } := by
  cases c <;> rfl

/-- After a scheduler step a channel is as its events left it: the sample boundary and `Settle` touch no channel. -/
theorem schedStep_ch (s : State) (c : Ch) :
    (schedStep s).ch c = (channelEvents (advance (minSelect s) s) (advance (minSelect s) s)).ch c := by
  rw [schedStep, processTick, settle_ch]
  split
  · exact sampleEvent_ch _ c
  · rfl

/-- The min-select is a lower bound of the candidates (`42_scheduler.md` R132). -/
theorem minSelect_le_of_mem {s : State} {n : Nat} (h : n ∈ candidates s) : minSelect s ≤ n := by
  have least : (s.sampleWhole :: candidates s).min? = some (minSelect s) := by
    rw [List.min?_cons', minSelect]
  exact (List.min?_eq_some_iff.1 least).2 n (List.mem_cons_of_mem _ h)

/-- A scheduler step does not pass the event of a channel (`42_scheduler.md` R131, R132). -/
theorem minSelect_le_counter {s : State} {c : Ch} {j : Nat} (h : (s.ch c).counter = .at j) : minSelect s ≤ j := by
  apply minSelect_le_of_mem
  have present : j ∈ [s.ch1.counter, s.ch2.counter, s.ch3.counter, s.ch4.counter].filterMap Ticks.toOption :=
    List.mem_filterMap.2 ⟨.at j, by cases c <;> simp_all, rfl⟩
  simp [candidates, present]

/-! ### A pure tone -/

/-- Channel c is a pure tone with the 5-bit gate bypassed and no filter link, and the option is off. -/
structure PureTone (c : Ch) (s : State) : Prop where
  optionOff : s.cfg.optInaudible = false
  bypassed : (s.ch c).audc.getLsbD 7 = true
  pureMode : (s.ch c).audc.getLsbD 5 = true
  unlinked : linkBit s.audctl c = false

theorem PureTone.of_channelSettings_eq {c : Ch} {s t : State} (hs : PureTone c s)
    (h : channelSettings t = channelSettings s) : PureTone c t := by
  obtain ⟨hcfg, hctl, hch⟩ := channelSettings_eq_iff.1 h
  obtain ⟨-, hc, -⟩ := hch c
  exact ⟨hcfg ▸ hs.optionOff, hc ▸ hs.bypassed, hc ▸ hs.pureMode, hctl ▸ hs.unlinked⟩

/-- The event of a pure tone: reload and flip. -/
def Channel.flipped (k : Channel) : Channel := { k with counter := k.divisor, output := !k.output }

theorem PureTone.fired_eq {c : Ch} {s : State} (h : PureTone c s) : Reference.fired s (s.ch c) = (s.ch c).flipped := by
  simp [Reference.fired, Reference.outputAfter, h.optionOff, h.bypassed, h.pureMode, Channel.flipped]

/-- The channel events of a tick flip a pure tone whose counter is at 0, and leave another as it is. -/
theorem PureTone.foldl_channelEvent_ch {c : Ch} (z : State) {l : List Ch} (hl : l.Nodup) {s : State} (h : PureTone c s) :
    (l.foldl (fun s d => if (z.ch d).counter.isZero then channelEvent d s else s) s).ch c =
      if c ∈ l ∧ (z.ch c).counter.isZero = true then (s.ch c).flipped else s.ch c := by
  induction l generalizing s with
  | nil => simp
  | cons d l ih =>
    obtain ⟨hd, hl⟩ := List.nodup_cons.1 hl
    rw [List.foldl_cons]
    by_cases hz : (z.ch d).counter.isZero = true
    · rw [if_pos hz, ih hl (h.of_channelSettings_eq (channelSettings_channelEvent d s))]
      by_cases hcd : c = d
      · subst hcd
        simp [hd, hz, channelEvent_ch_self h.unlinked, h.fired_eq]
      · simp [hcd, channelEvent_ch_ne h.unlinked hcd]
    · rw [if_neg hz, ih hl h]
      by_cases hcd : c = d
      · subst hcd
        simp [hd, hz]
      · simp [hcd]

/-- A scheduler step on a pure tone that is `j` ticks from its event: it comes nearer, or it reaches the event and flips. -/
theorem PureTone.schedStep_ch {c : Ch} {s : State} (h : PureTone c s) {j : Nat} (hj : (s.ch c).counter = .at j) :
    (schedStep s).ch c = if j - minSelect s = 0 then (s.ch c).flipped
      else { s.ch c with counter := .at (j - minSelect s) } := by
  have moved := h.of_channelSettings_eq (advance_settings (minSelect s) s).channelSettings_eq
  have listed : c ∈ channelOrder := by cases c <;> simp [channelOrder]
  rw [Machine.schedStep_ch, channelEvents, moved.foldl_channelEvent_ch _ (by decide), advance_ch, hj]
  simp [listed, Channel.flipped]

/-- `m` events after the state `s`, where the counter was `k`: channel c has `j` ticks to its next event, and its output has
flipped `m` times. -/
structure TonePhase (c : Ch) (k d : Nat) (s u : State) (m j : Nat) : Prop where
  settings : channelSettings u = channelSettings s
  counter : (u.ch c).counter = .at j
  output : (u.ch c).output = ((s.ch c).output != (m % 2 == 1))
  time : u.now + j = s.now + k + m * d
  bound : 0 < m → j ≤ d

theorem TonePhase.start {c : Ch} {k : Nat} {s : State} (hk : (s.ch c).counter = .at k) (d : Nat) : TonePhase c k d s s 0 k :=
  ⟨rfl, hk, by simp, by simp, fun h => absurd h (Nat.lt_irrefl 0)⟩

/-- Each scheduler step ends between two events of the tone: those of its tick are done. -/
theorem TonePhase.schedStep {c : Ch} {k d m j : Nat} {s u : State} (hs : PureTone c s) (hd : (s.ch c).divisor = .at d)
    (hpos : 0 < d) (h : TonePhase c k d s u m j) : ∃ m' j', 0 < j' ∧ TonePhase c k d s (schedStep u) m' j' := by
  have tone := hs.of_channelSettings_eq h.settings
  have settings := (schedStep_settings u).channelSettings_eq.trans h.settings
  have step := tone.schedStep_ch h.counter
  have near := minSelect_le_counter h.counter
  have now := (schedStep_timeMoved u).now
  have time := h.time
  by_cases hzero : j - minSelect u = 0
  · rw [if_pos hzero] at step
    have divisor : (u.ch c).divisor = .at d := by
      obtain ⟨-, -, hch⟩ := channelSettings_eq_iff.1 h.settings
      obtain ⟨-, -, hdiv, -⟩ := hch c
      rw [hdiv, hd]
    refine ⟨m + 1, d, hpos, settings, by rw [step]; exact divisor, ?_, ?_, fun _ => le_rfl⟩
    · have flip : ((m + 1) % 2 == 1) = !(m % 2 == 1) := by
        obtain hm | hm := Nat.mod_two_eq_zero_or_one m <;> simp [hm, Nat.add_mod]
      rw [step, Channel.flipped, h.output, flip]
      cases (s.ch c).output <;> cases m % 2 == 1 <;> rfl
    · rw [now, Nat.succ_mul]
      omega
  · rw [if_neg hzero] at step
    exact ⟨m, j - minSelect u, Nat.pos_of_ne_zero hzero, settings, by rw [step], by rw [step]; exact h.output,
      by omega, fun hm => (Nat.sub_le _ _).trans (h.bound hm)⟩

/-- The closing `Settle` touches neither the time nor a channel. -/
theorem TonePhase.settle {c : Ch} {k d m j : Nat} {s u : State} (h : TonePhase c k d s u m j) :
    TonePhase c k d s (settle u) m j where
  settings := (channelSettings_settle u).trans h.settings
  counter := by rw [settle_ch, h.counter]
  output := by rw [settle_ch, h.output]
  time := by rw [(settle_untimed u).now, h.time]
  bound := h.bound

/-- The number of events that lie behind, from the time that has passed. -/
theorem TonePhase.events_eq {c : Ch} {k d m j : Nat} {s u : State} (h : TonePhase c k d s u m j) (hj : 0 < j)
    (hle : s.now ≤ u.now) : (if u.now - s.now < k then 0 else 1 + (u.now - s.now - k) / d) = m := by
  have time := h.time
  cases m with
  | zero => rw [if_pos (by omega)]
  | succ m =>
    have bound := h.bound (Nat.succ_pos m)
    rw [Nat.succ_mul] at time
    have rest : u.now - s.now - k = (d - j) + m * d := by omega
    rw [if_neg (by omega), rest, Nat.add_mul_div_right _ _ (by omega), Nat.div_eq_of_lt (by omega), Nat.zero_add, Nat.add_comm]

/-- A `RENDER` of at least one sample runs at least one scheduler step: what holds after that step and is kept by all others
and by `Settle` holds at the end. -/
theorem exec_render_keeps {P : State → Prop} {n : Nat} {s t : State} (hn : 0 < n) (first : P (schedStep s))
    (keep : ∀ u, P u → P (schedStep u)) (close : ∀ u, P u → P (settle u)) (h : exec (.render n) s = .next t) : P t := by
  obtain ⟨u, hu, ht⟩ := exec_render_next h
  rw [ht]
  apply close
  obtain ⟨n, rfl⟩ := Nat.exists_eq_succ_of_ne_zero hn.ne'
  cases hfuel : renderFuel (n + 1) s with
  | zero => simp [hfuel, renderLoop] at hu
  | succ fuel =>
    rw [hfuel, renderLoop] at hu
    exact renderLoop_keeps keep _ _ _ _ first hu

/-- Settles O27: every scheduler step keeps the tone in a phase between two events, and the phase at the end tells how many
events lie behind. -/
theorem pureToneTogglesOncePerDivisor : Obligations.PureToneTogglesOncePerDivisor := by
  intro s t c n k d hinv hoption hbypassed hpure hlink1 hlink2 hk hd hn h
  have tone : PureTone c s := ⟨hoption, hbypassed, hpure, by cases c <;> simp_all [linkBit]⟩
  have hpos : 0 < d := by
    have hformula := hinv.divisorFormula c
    rw [hd, divisorOf] at hformula
    injection hformula with hformula
    omega
  have phase : ∃ m j, 0 < j ∧ TonePhase c k d s t m j := by
    refine exec_render_keeps (P := fun u => ∃ m j, 0 < j ∧ TonePhase c k d s u m j) hn ?_ ?_ ?_ h
    · exact (TonePhase.start hk d).schedStep tone hd hpos
    · rintro u ⟨m, j, -, hu⟩
      exact hu.schedStep tone hd hpos
    · rintro u ⟨m, j, hj, hu⟩
      exact ⟨m, j, hj, hu.settle⟩
  obtain ⟨m, j, hj, hphase⟩ := phase
  simp only [hphase.events_eq hj (exec_render_now_le h)]
  exact hphase.output

end Sys2Proof.Machine
end

section
/-!
PROOFS. One step of the scheduler (`42_scheduler.md` R130 to R144): the events of a tick are those of the rules, in their
order; the min-select is the least distance to an event; `Advance` splits; and up to the tick of its events a step is the
per-tick machine.
-/

namespace Sys2Proof.Machine

/-! ### The deadline events are the rules' -/

theorem timerExpiry_eq (k : TimerId) (s : State) : timerExpiry k s = Reference.timerIfDue (timerIrqBit k) k s := by
  unfold timerExpiry Reference.timerIfDue
  cases h : s.timer k with
  | mk period deadline => cases deadline <;> cases period <;> rfl

theorem serialReady_eq (s : State) : serialReady s = Reference.readyIfDue s := by
  unfold serialReady Reference.readyIfDue
  cases h : s.serReady with
  | none => rfl
  | some d => simp only [due, decide_eq_true_eq]; rfl

theorem serialComplete_eq (s : State) : serialComplete s = Reference.completeIfDue s := by
  unfold serialComplete Reference.completeIfDue
  cases h : s.serComplete with
  | none => rfl
  | some d => simp only [due, decide_eq_true_eq]; rfl

theorem potComplete_eq (i : Fin 8) (s : State) : potComplete i s = Reference.potIfDue i s := by
  unfold potComplete Reference.potIfDue
  cases hd : (s.pot i).deadline <;> cases ht : (s.pot i).target <;> simp [State.setPot, ht, potBit]

theorem settle_eq (s : State) : settle s = Reference.settled s := by
  simp only [settle, Reference.settled, timerExpiry_eq, serialReady_eq, serialComplete_eq, potComplete_eq, potInputs,
    List.foldl]
  rfl

theorem advance_eq (e : Nat) (s : State) : advance e s = Reference.advanced e s := by
  have counter (t : Ticks) : t.minus e = Reference.counted e t := by cases t <;> rfl
  simp only [advance, polyAdvance, counter]
  rfl

theorem sampleEvent_eq (s : State) : sampleEvent s = Reference.sampled s := by
  have adds (c : Ch) : contribution s c = Reference.adds (s.ch c) := by
    simp only [contribution, Reference.adds, audcVolOnly, Bool.or_eq_true]
  simp only [sampleEvent, Reference.sampled, sampleValue, mix, adds, sampleMax, emit_eq_told, Nat.shiftRight_eq_div_pow]
  rfl

theorem ticks_isZero_iff (t : Ticks) : t.isZero = true ↔ t = .at 0 := by
  cases t <;> simp

theorem processTick_eq (s : State) : processTick s = Reference.tick s := by
  simp only [processTick, channelEvents, channelOrder, List.foldl, ticks_isZero_iff, settle_eq, sampleEvent_eq,
    channelEvent_eq]
  rfl

/-- Settles O29. -/
theorem sampleEventEmitsTheClampedSum : Obligations.SampleEventEmitsTheClampedSum :=
  fun s => congrArg Host.Outcome.next (sampleEvent_eq s)

/-- Settles O41: in a settled state each deadline lies ahead, and an event whose deadline lies ahead does nothing. -/
theorem eventsNotDueChangeNothing : Obligations.EventsNotDueChangeNothing := by
  intro s hs
  obtain ⟨ht, hr, hc, hp⟩ := hs.ahead
  have timer (k : TimerId) : timerExpiry k s = s := timerExpiry_of_not_due k s (ht k)
  have ready : serialReady s = s := serialReady_of_not_due s hr
  have complete : serialComplete s = s := serialComplete_of_not_due s hc
  have pot (j : Fin 8) : potComplete j s = s := potComplete_of_not_due j s (hp j)
  simp [exec, execEvT1, execEvT2, execEvT4, execEvSerReady, execEvSerComplete, execEvPot0, execEvPot1, execEvPot2,
    execEvPot3, execEvPot4, execEvPot5, execEvPot6, execEvPot7, timer, ready, complete, pot]

/-! ### The candidates and the min-select -/

theorem sampleWhole_mem_candidates (s : State) : s.sampleWhole ∈ candidates s := by
  simp [candidates]

theorem minSelect_mem_candidates (s : State) : minSelect s ∈ candidates s := by
  have least : (s.sampleWhole :: candidates s).min? = some (minSelect s) := by rw [List.min?_cons', minSelect]
  obtain h | h := List.mem_cons.1 (List.min?_mem least)
  · exact h ▸ sampleWhole_mem_candidates s
  · exact h

/-- Settles O34: the fold starts from `samplepos_whole`, itself a candidate. -/
theorem minSelectIsTheLeastCandidate : Obligations.MinSelectIsTheLeastCandidate :=
  fun s => ⟨minSelect_mem_candidates s, fun _ => minSelect_le_of_mem⟩

theorem minSelect_le_sampleWhole (s : State) : minSelect s ≤ s.sampleWhole :=
  minSelect_le_of_mem (sampleWhole_mem_candidates s)

/-- The candidates are the present counters, the ticks to the sample boundary, and the distances to the deadlines
(`42_scheduler.md` R131). -/
theorem mem_candidates_iff {s : State} {n : Nat} : n ∈ candidates s ↔
    (∃ c, (s.ch c).counter = .at n) ∨ n = s.sampleWhole ∨ ∃ d ∈ deadlines s, d - s.now = n := by
  have present (t : Ticks) : t.toOption = some n ↔ t = .at n := by cases t <;> simp [Ticks.toOption]
  have channel : (∃ c, (s.ch c).counter = .at n) ↔
      s.ch1.counter = .at n ∨ s.ch2.counter = .at n ∨ s.ch3.counter = .at n ∨ s.ch4.counter = .at n := by
    refine ⟨fun ⟨c, h⟩ => by cases c <;> simp_all, ?_⟩
    rintro (h | h | h | h)
    · exact ⟨.ch1, h⟩
    · exact ⟨.ch2, h⟩
    · exact ⟨.ch3, h⟩
    · exact ⟨.ch4, h⟩
  simp [candidates, List.mem_filterMap, present, channel, or_assoc, @eq_comm _ (Ticks.at n)]

/-! ### `Advance` -/

theorem advance_add (a b : Nat) (s : State) : advance (a + b) s = advance b (advance a s) := by
  have counter (t : Ticks) : t.minus (a + b) = (t.minus a).minus b := by
    cases t <;> simp [Nat.sub_sub]
  simp only [advance, polyAdvance, counter, Nat.mod_add_mod, Nat.sub_sub, Nat.add_assoc]

/-- Settles O35. -/
theorem advanceSplitsAndZeroIsIdentity : Obligations.AdvanceSplitsAndZeroIsIdentity := by
  refine ⟨fun s a b => advance_add a b s, fun s h4 h5 h9 h17 => ?_⟩
  have counter (t : Ticks) : Reference.counted 0 t = t := by cases t <;> rfl
  simp only [advance_eq, Reference.advanced, counter, Nat.add_zero, Nat.sub_zero, Nat.mod_eq_of_lt h4,
    Nat.mod_eq_of_lt h5, Nat.mod_eq_of_lt h9, Nat.mod_eq_of_lt h17]

/-- Every candidate comes nearer by the ticks that pass. -/
theorem candidates_advance (e : Nat) (s : State) : candidates (advance e s) = (candidates s).map (· - e) := by
  have counter (t : Ticks) : (t.minus e).toOption = t.toOption.map (· - e) := by cases t <;> rfl
  have counters (l : List Ticks) :
      (l.map (·.minus e)).filterMap Ticks.toOption = (l.filterMap Ticks.toOption).map (· - e) := by
    simp only [List.filterMap_map, List.map_filterMap, Function.comp_def, counter]
  have distances : (deadlines s).map (· - (s.now + e)) = ((deadlines s).map (· - s.now)).map (· - e) := by
    simp only [List.map_map, Function.comp_def, Nat.sub_sub]
  rw [candidates, candidates, List.map_append, List.map_append, ← counters, ← distances]
  rfl

/-! ### A tick without an event -/

/-- Nothing is waiting: no counter and no sample boundary at 0, and no deadline due. -/
theorem nothingWaiting_iff {s : State} : s.NothingWaiting ↔
    (∀ c, (s.ch c).counter.isZero = false) ∧ 0 < s.sampleWhole ∧ s.Settled := by
  have counter (t : Ticks) : t.isZero = false ↔ ∀ n, t = .at n → 0 < n := by
    cases t <;> simp [Nat.pos_iff_ne_zero]
  simp only [State.NothingWaiting, mem_candidates_iff, counter, State.Settled, or_imp, forall_and, forall_exists_index,
    forall_eq, and_imp, forall_apply_eq_imp_iff₂, Nat.sub_pos_iff_lt]
  rw [forall_comm]

/-- Without an event nothing happens on a tick. -/
theorem processTick_of_nothingWaiting {s : State} (h : s.NothingWaiting) : processTick s = s := by
  obtain ⟨hcounter, hsample, hsettled⟩ := nothingWaiting_iff.1 h
  have channels : channelEvents s s = s := by
    simp only [channelEvents, channelOrder, List.foldl, hcounter, Bool.false_eq_true, if_false]
  rw [processTick]
  simp only [channels, if_neg hsample.ne', settle_of_settled hsettled]

/-- As long as every candidate lies ahead the per-tick machine only lets time pass. -/
theorem perTicks_eq_processTick {e : Nat} {s : State} (hpos : 0 < e) (h : ∀ n ∈ candidates s, e ≤ n) :
    perTicks e s = processTick (advance e s) := by
  induction e generalizing s with
  | zero => exact absurd hpos (Nat.lt_irrefl 0)
  | succ e ih =>
    rw [perTicks, perTick]
    obtain rfl | he := Nat.eq_zero_or_pos e
    · rfl
    · have ahead : ∀ n ∈ candidates (advance 1 s), e ≤ n := by
        simp only [candidates_advance, List.forall_mem_map]
        exact fun n hn => Nat.le_sub_one_of_lt (h n hn)
      have waiting : (advance 1 s).NothingWaiting := fun n hn => he.trans_le (ahead n hn)
      rw [processTick_of_nothingWaiting waiting, ih he ahead, ← advance_add, Nat.add_comm]

/-- Settles O33: between two events the per-tick machine only lets time pass, and `Advance` splits into its ticks. -/
theorem schedStepRefinesThePerTickMachine : Obligations.SchedStepRefinesThePerTickMachine := by
  refine ⟨fun s => ?_, settle_eq, fun s => ?_, fun s h => ?_⟩
  · rw [schedStep, processTick_eq, advance_eq]
  · rw [perTick, processTick_eq, advance_eq]
  · rw [perTicks_eq_processTick (h _ (minSelect_mem_candidates s)) fun _ => minSelect_le_of_mem, schedStep]

end Sys2Proof.Machine
end

section
/-!
PROOFS. `Settle` (`42_scheduler.md` R142, R143), deadline by deadline: a due timer moves by one period, the other due events
clear their deadline. Nothing due is left.
-/

namespace Sys2Proof.Machine

/-! ### What `Settle` makes of each deadline -/

/-- A timer after its expiry, which does nothing before the deadline (`43_timer_irq.md` R155). -/
def Timer.movedIfDue (now : Nat) (t : Timer) : Timer :=
  match t.deadline, t.period with
  | some d, some p => if d ≤ now then { t with deadline := some (d + p) } else t
  | _, _ => t

theorem Timer.movedIfDue_of_due {now d p : Nat} {t : Timer} (hd : t.deadline = some d) (hp : t.period = some p)
    (h : d ≤ now) : t.movedIfDue now = { period := some p, deadline := some (d + p) } := by
  simp [Timer.movedIfDue, hd, hp, h]

/-- Without a period or with its deadline ahead a timer stays as it is. -/
theorem Timer.movedIfDue_of_not_due {now : Nat} {t : Timer}
    (h : ∀ d p, t.deadline = some d → t.period = some p → now < d) : t.movedIfDue now = t := by
  unfold Timer.movedIfDue
  split
  · next hd hp => rw [if_neg (Nat.not_le.2 (h _ _ hd hp))]
  · rfl

/-- Without a period or with its deadline ahead a timer does not expire. -/
theorem timerExpiry_of_no_expiry {k : TimerId} {s : State}
    (h : ∀ d p, (s.timer k).deadline = some d → (s.timer k).period = some p → s.now < d) : timerExpiry k s = s := by
  unfold timerExpiry
  split
  · next hd hp => rw [if_neg (Nat.not_le.2 (h _ _ hd hp))]
  · rfl

/-- An expiry keeps the period. -/
theorem Timer.movedIfDue_period (now : Nat) (t : Timer) : (t.movedIfDue now).period = t.period := by
  unfold Timer.movedIfDue
  split
  · split <;> rfl
  · rfl

/-- An expiry arms no timer. -/
theorem Timer.deadline_of_movedIfDue {now d : Nat} {t : Timer} (h : (t.movedIfDue now).deadline = some d) :
    ∃ e, t.deadline = some e := by
  cases old : t.deadline with
  | none => simp [movedIfDue, old] at h
  | some e => exact ⟨e, rfl⟩

/-- A deadline that is left after the expiry is the old one that lies ahead, or the next one. -/
theorem Timer.ahead_of_movedIfDue {now d : Nat} {t : Timer} (h : (t.movedIfDue now).deadline = some d)
    (hnext : ∀ d, t.deadline = some d → ∃ p, t.period = some p ∧ now < d + p) : now < d := by
  by_cases hdue : ∃ e p, t.deadline = some e ∧ t.period = some p ∧ e ≤ now
  · obtain ⟨e, p, he, hp, hle⟩ := hdue
    rw [movedIfDue_of_due he hp hle] at h
    obtain ⟨q, hq, hlt⟩ := hnext e he
    obtain rfl : p = q := Option.some.inj (hp.symm.trans hq)
    exact Option.some.inj h ▸ hlt
  · have ahead (e p : Nat) (he : t.deadline = some e) (hp : t.period = some p) : now < e :=
      Nat.lt_of_not_le fun hle => hdue ⟨e, p, he, hp, hle⟩
    rw [movedIfDue_of_not_due ahead] at h
    obtain ⟨p, hp, -⟩ := hnext d h
    exact ahead d p h hp

/-- A completion leaves the deadline or clears it. -/
theorem deadline_of_completedIfDue {now d : Nat} {x : Bool × PotSlot} (h : (completedIfDue now x).2.deadline = some d) :
    x.2.deadline = some d := by
  obtain same | done := completedIfDue_cases now x
  · rwa [same] at h
  · exact nomatch done.symm.trans h

/-- A deadline that is left after the completion lies ahead. -/
theorem ahead_of_completedIfDue {now d : Nat} {x : Bool × PotSlot} (h : (completedIfDue now x).2.deadline = some d)
    (ht : ∀ d, x.2.deadline = some d → x.2.target.isSome = true) : now < d := by
  have old := deadline_of_completedIfDue h
  obtain ⟨t, ht⟩ := Option.isSome_iff_exists.1 (ht d old)
  refine Nat.lt_of_not_le fun hle => ?_
  rw [completedIfDue_of_due old ht hle] at h
  cases h

theorem completedIfDue_target (now : Nat) (x : Bool × PotSlot) : (completedIfDue now x).2.target = x.2.target := by
  unfold completedIfDue
  split
  · next ht =>
    split
    · exact ht.symm
    · rfl
  · rfl

theorem raiseIrq_timer (bits : Byte) (s : State) (k : TimerId) : (raiseIrq bits s).timer k = s.timer k := by
  obtain ⟨q, l, h⟩ := raiseIrq_frame bits s
  rw [h]
  cases k <;> rfl

/-- An expiry moves its own timer, and leaves the others. -/
theorem timerExpiry_timer (k j : TimerId) (s : State) :
    (timerExpiry k s).timer j = if j = k then (s.timer j).movedIfDue s.now else s.timer j := by
  by_cases hdue : ∃ d p, (s.timer k).deadline = some d ∧ (s.timer k).period = some p ∧ d ≤ s.now
  · obtain ⟨d, p, hd, hp, hle⟩ := hdue
    rw [timerExpiry_of_due k s d p (by rw [← hd, ← hp]) hle, raiseIrq_timer]
    by_cases hj : j = k
    · subst hj
      rw [if_pos rfl, State.setTimer_timer, Timer.movedIfDue_of_due hd hp hle]
    · rw [if_neg hj, State.setTimer_timer_ne s _ hj]
  · have ahead (d p : Nat) (hd : (s.timer k).deadline = some d) (hp : (s.timer k).period = some p) : s.now < d :=
      Nat.lt_of_not_le fun hle => hdue ⟨d, p, hd, hp, hle⟩
    rw [timerExpiry_of_no_expiry ahead]
    by_cases hj : j = k
    · subst hj
      rw [if_pos rfl, Timer.movedIfDue_of_not_due ahead]
    · rw [if_neg hj]

/-- An expiry leaves the serial deadlines and the paddles. -/
theorem timerExpiry_others (k : TimerId) (s : State) : (timerExpiry k s).serReady = s.serReady ∧
    (timerExpiry k s).serComplete = s.serComplete ∧ potBitAndSlot (timerExpiry k s) = potBitAndSlot s := by
  obtain ⟨d, q, l, h⟩ := timerExpiry_frame k s
  rw [h]
  cases k <;> exact ⟨rfl, rfl, rfl⟩

theorem serialReady_serReady (s : State) : (serialReady s).serReady = if due s.now s.serReady then none else s.serReady := by
  unfold serialReady
  split
  · obtain ⟨q, l, h⟩ := raiseIrq_frame irqSerReady { s with serReady := none }
    rw [h]
  · rfl

/-- The serial "ready" event leaves the other deadlines. -/
theorem serialReady_others (s : State) : (∀ k, (serialReady s).timer k = s.timer k) ∧
    (serialReady s).serComplete = s.serComplete ∧ potBitAndSlot (serialReady s) = potBitAndSlot s := by
  obtain ⟨d, q, l, h⟩ := serialReady_frame s
  rw [h]
  exact ⟨fun k => by cases k <;> rfl, rfl, rfl⟩

theorem serialComplete_serComplete (s : State) :
    (serialComplete s).serComplete = if due s.now s.serComplete then none else s.serComplete := by
  unfold serialComplete
  split
  · obtain ⟨q, l, h⟩ := raiseIrq_frame irqSerComplete
      { s with serComplete := none, skstat := s.skstat &&& ~~~skstatBusy }
    rw [h]
  · rfl

/-- The serial "complete" event leaves the other deadlines. -/
theorem serialComplete_others (s : State) : (∀ k, (serialComplete s).timer k = s.timer k) ∧
    (serialComplete s).serReady = s.serReady ∧ potBitAndSlot (serialComplete s) = potBitAndSlot s := by
  obtain ⟨d, k, q, l, h⟩ := serialComplete_frame s
  rw [h]
  exact ⟨fun k => by cases k <;> rfl, rfl, rfl⟩

/-- The paddle completions leave the other deadlines. -/
theorem settlePots_others (l : List (Fin 8)) (s : State) :
    (∀ k, (l.foldl (fun s i => potComplete i s) s).timer k = s.timer k) ∧
      (l.foldl (fun s i => potComplete i s) s).serReady = s.serReady ∧
      (l.foldl (fun s i => potComplete i s) s).serComplete = s.serComplete := by
  obtain ⟨a, p, h⟩ := settlePots_frame l s
  rw [h]
  exact ⟨fun k => by cases k <;> rfl, rfl, rfl⟩

/-- The timer part of `Settle`. -/
def settleTimers (s : State) : State := timerExpiry .t4 (timerExpiry .t2 (timerExpiry .t1 s))

theorem settle_parts (s : State) :
    settle s = potInputs.foldl (fun s i => potComplete i s) (serialComplete (serialReady (settleTimers s))) := rfl

theorem settleTimers_now (s : State) : (settleTimers s).now = s.now := by
  rw [settleTimers, (timerExpiry_untimed _ _).now, (timerExpiry_untimed _ _).now, (timerExpiry_untimed _ _).now]

theorem settleTimers_timer (s : State) (k : TimerId) : (settleTimers s).timer k = (s.timer k).movedIfDue s.now := by
  simp only [settleTimers, timerExpiry_timer, (timerExpiry_untimed _ _).now]
  cases k <;> simp

theorem settleTimers_others (s : State) : (settleTimers s).serReady = s.serReady ∧
    (settleTimers s).serComplete = s.serComplete ∧ potBitAndSlot (settleTimers s) = potBitAndSlot s := by
  simp only [settleTimers, timerExpiry_others, and_self]

theorem settle_timer (s : State) (k : TimerId) : (settle s).timer k = (s.timer k).movedIfDue s.now := by
  rw [settle_parts, (settlePots_others _ _).1, (serialComplete_others _).1, (serialReady_others _).1, settleTimers_timer]

theorem settle_serReady (s : State) : (settle s).serReady = if due s.now s.serReady then none else s.serReady := by
  rw [settle_parts, (settlePots_others _ _).2.1, (serialComplete_others _).2.1, serialReady_serReady, settleTimers_now,
    (settleTimers_others s).1]

theorem settle_serComplete (s : State) :
    (settle s).serComplete = if due s.now s.serComplete then none else s.serComplete := by
  rw [settle_parts, (settlePots_others _ _).2.2, serialComplete_serComplete, (serialReady_untimed _).now, settleTimers_now,
    (serialReady_others _).2.1, (settleTimers_others s).2.1]

theorem settle_potBitAndSlot (s : State) (i : Fin 8) :
    potBitAndSlot (settle s) i = completedIfDue s.now (potBitAndSlot s i) := by
  rw [settle_parts, potBitAndSlot_foldl_potComplete, if_pos (mem_potInputs i), (serialComplete_untimed _).now,
    (serialReady_untimed _).now, settleTimers_now, (serialComplete_others _).2.2, (serialReady_others _).2.2,
    (settleTimers_others s).2.2]

theorem potBitAndSlot_snd (s : State) (i : Fin 8) : (potBitAndSlot s i).2 = s.pot i := rfl

theorem settle_pot (s : State) (i : Fin 8) : (settle s).pot i = (completedIfDue s.now (potBitAndSlot s i)).2 := by
  rw [← potBitAndSlot_snd, settle_potBitAndSlot]

/-! ### Nothing due is left -/

/-- A serial deadline that is left lies ahead. -/
theorem ahead_of_cleared {now d : Nat} {o : Option Nat} (h : (if due now o then none else o) = some d) : now < d := by
  split at h
  · cases h
  · next hdue =>
    subst h
    simpa [due] using hdue

/-- Settles O36, deadline by deadline. -/
theorem settleLeavesNothingDue : Obligations.SettleLeavesNothingDue := by
  intro s htimer hpot
  apply State.settled_of_ahead <;> rw [(settle_untimed s).now]
  · intro k d hd
    rw [settle_timer] at hd
    exact Timer.ahead_of_movedIfDue hd (htimer k)
  · intro d hd
    rw [settle_serReady] at hd
    exact ahead_of_cleared hd
  · intro d hd
    rw [settle_serComplete] at hd
    exact ahead_of_cleared hd
  · intro i d hd
    rw [settle_pot] at hd
    exact ahead_of_completedIfDue hd (hpot i)

end Sys2Proof.Machine
end

section
/-!
PROOFS. `RENDER` (`42_scheduler.md` R136 to R145): what a scheduler step does to the sample position and to the samples told,
why its loop ends within the bound, that loops join, and the tick on which the last sample falls.
-/

namespace Sys2Proof.Machine

/-! ### The channel events of a tick -/

/-- Every counter is above 0 or NEVER: no channel event is waiting. -/
def State.CountersRunning (s : State) : Prop := ∀ c, (s.ch c).counter.isZero = false

/-- No divisor is 0 (`41_channel.md` R101). -/
def State.DivisorsPositive (s : State) : Prop := ∀ c, (s.ch c).divisor.isZero = false

theorem State.DivisorsPositive.of_channelSettings_eq {s t : State} (hs : s.DivisorsPositive)
    (h : channelSettings t = channelSettings s) : t.DivisorsPositive := by
  obtain ⟨-, -, hch⟩ := channelSettings_eq_iff.1 h
  intro c
  obtain ⟨-, -, hdiv, -⟩ := hch c
  rw [hdiv]
  exact hs c

/-- An event reloads its own counter and leaves the others. -/
theorem channelEvent_counter (d : Ch) (s : State) (c : Ch) : ((channelEvent d s).ch c).counter =
    if c = d then (Reference.fired s (s.ch c)).counter else (s.ch c).counter := by
  rw [channelEvent_eq]
  cases d <;> cases c <;> rfl

theorem fired_counter_running (s : State) {k : Channel} (h : k.divisor.isZero = false) :
    (Reference.fired s k).counter.isZero = false := by
  unfold Reference.fired
  split
  · rfl
  · exact h

/-- The counter of a channel runs after the channel events if it ran before, or if its own event is among them. -/
theorem foldl_channelEvent_running (z : State) (l : List Ch) {s : State} {c : Ch} (hdiv : s.DivisorsPositive)
    (h : (s.ch c).counter.isZero = false ∨ (c ∈ l ∧ (z.ch c).counter.isZero = true)) :
    ((l.foldl (fun s d => if (z.ch d).counter.isZero then channelEvent d s else s) s).ch c).counter.isZero = false := by
  induction l generalizing s with
  | nil => simpa using h
  | cons d l ih =>
    rw [List.foldl_cons]
    split
    · refine ih (hdiv.of_channelSettings_eq (channelSettings_channelEvent d s)) ?_
      rw [channelEvent_counter]
      by_cases hcd : c = d
      · rw [if_pos hcd]
        exact .inl (fired_counter_running s (hdiv c))
      · rw [if_neg hcd]
        exact h.imp_right (And.imp_left fun hc => List.mem_of_ne_of_mem hcd hc)
    · next hz =>
      refine ih hdiv (h.imp_right fun ⟨hc, hzc⟩ => ⟨List.mem_of_ne_of_mem ?_ hc, hzc⟩)
      rintro rfl
      exact hz hzc

/-- After the channel events of a tick every counter runs: those at 0 are reloaded. -/
theorem channelEvents_running {s : State} (hdiv : s.DivisorsPositive) : (channelEvents s s).CountersRunning := by
  intro c
  have listed : c ∈ channelOrder := by cases c <;> simp [channelOrder]
  refine foldl_channelEvent_running s channelOrder hdiv ?_
  cases h : (s.ch c).counter.isZero with
  | false => exact .inl rfl
  | true => exact .inr ⟨listed, rfl⟩

/-! ### What a step does beside the channels -/

/-- The audio part of a tick: the channel events and the sample boundary. -/
def audioTick (s : State) : State :=
  if (channelEvents s s).sampleWhole = 0 then sampleEvent (channelEvents s s) else channelEvents s s

theorem audioTick_of_boundary {s : State} (h : s.sampleWhole = 0) : audioTick s = sampleEvent (channelEvents s s) := by
  obtain ⟨n1, n2, n3, n4, o1, o2, o3, o4, hf⟩ := channelEvents_frame s s
  exact if_pos (by rw [hf]; exact h)

theorem audioTick_of_no_boundary {s : State} (h : s.sampleWhole ≠ 0) : audioTick s = channelEvents s s := by
  obtain ⟨n1, n2, n3, n4, o1, o2, o3, o4, hf⟩ := channelEvents_frame s s
  exact if_neg (by rw [hf]; exact h)

/-- The audio part of a tick leaves the time, the timers and the paddles. -/
theorem audioTick_others (s : State) : (audioTick s).now = s.now ∧ (∀ k, (audioTick s).timer k = s.timer k) ∧
    potBitAndSlot (audioTick s) = potBitAndSlot s := by
  obtain ⟨n1, n2, n3, n4, o1, o2, o3, o4, h⟩ := channelEvents_frame s s
  unfold audioTick
  rw [h]
  split <;> exact ⟨rfl, fun k => by cases k <;> rfl, rfl⟩

theorem schedStep_eq_settle (s : State) : schedStep s = settle (audioTick (advance (minSelect s) s)) := rfl

theorem schedStep_now (s : State) : (schedStep s).now = s.now + minSelect s := (schedStep_timeMoved s).now

theorem schedStep_timer (s : State) (k : TimerId) :
    (schedStep s).timer k = (s.timer k).movedIfDue (s.now + minSelect s) := by
  obtain ⟨hnow, htimer, -⟩ := audioTick_others (advance (minSelect s) s)
  rw [schedStep_eq_settle, settle_timer, hnow, htimer]
  cases k <;> rfl

theorem schedStep_pot (s : State) (i : Fin 8) :
    (schedStep s).pot i = (completedIfDue (s.now + minSelect s) (potBitAndSlot s i)).2 := by
  obtain ⟨hnow, -, hpot⟩ := audioTick_others (advance (minSelect s) s)
  rw [schedStep_eq_settle, settle_pot, hnow, hpot]
  rfl

/-- The closing `Settle` touches no counter, so those of a step run after it. -/
theorem schedStep_running {s : State} (hdiv : s.DivisorsPositive) : (schedStep s).CountersRunning := by
  intro c
  rw [schedStep_ch]
  exact channelEvents_running (hdiv.of_channelSettings_eq (advance_settings (minSelect s) s).channelSettings_eq) c

/-! ### The samples that the host is told -/

/-- The samples the host has been told, newest first. -/
def samplesTold (s : State) : List Nat := samplesIn s.env.trace

theorem samplesTold_of_env_eq {s t : State} (h : t.env = s.env) : samplesTold t = samplesTold s := by
  rw [samplesTold, h, samplesTold]

theorem samplesTold_raiseIrq (bits : Byte) (s : State) : samplesTold (raiseIrq bits s) = samplesTold s := by
  rw [raiseIrq_eq]
  split <;> rfl

theorem samplesTold_timerExpiry (k : TimerId) (s : State) : samplesTold (timerExpiry k s) = samplesTold s := by
  unfold timerExpiry
  split
  · split
    · rw [samplesTold_raiseIrq, samplesTold_of_env_eq (State.setTimer_env s k _)]
    · rfl
  · rfl

theorem samplesTold_serialReady (s : State) : samplesTold (serialReady s) = samplesTold s := by
  unfold serialReady
  split
  · exact samplesTold_raiseIrq _ _
  · rfl

theorem samplesTold_serialComplete (s : State) : samplesTold (serialComplete s) = samplesTold s := by
  unfold serialComplete
  split
  · exact samplesTold_raiseIrq _ _
  · rfl

/-- `Settle` tells the host no sample. -/
theorem samplesTold_settle (s : State) : samplesTold (settle s) = samplesTold s := by
  obtain ⟨a, p, h⟩ := settlePots_frame potInputs (serialComplete (serialReady (settleTimers s)))
  rw [settle_parts, h]
  change samplesTold (serialComplete (serialReady (settleTimers s))) = samplesTold s
  rw [samplesTold_serialComplete, samplesTold_serialReady, settleTimers, samplesTold_timerExpiry, samplesTold_timerExpiry,
    samplesTold_timerExpiry]

/-! ### The sample position over a step -/

theorem stepEmits_iff (s : State) : stepEmits s = true ↔ s.sampleWhole = minSelect s := decide_eq_true_iff

theorem settle_samplePosition (s : State) :
    (settle s).sampleWhole = s.sampleWhole ∧ (settle s).sampleFract = s.sampleFract := by
  obtain ⟨d1, d2, d4, r, x, k, q, a, p, l, h⟩ := settle_frame s
  rw [h]
  exact ⟨rfl, rfl⟩

/-- The step that reaches the sample boundary tells one sample and moves the 24.8 accumulator by one step
(`42_scheduler.md` R137). -/
theorem schedStep_of_emits {s : State} (h : stepEmits s = true) :
    (schedStep s).sampleWhole = (s.sampleFract + s.cfg.step248) / 256 ∧
      (schedStep s).sampleFract = (s.sampleFract + s.cfg.step248) % 256 ∧
      ∃ v ≤ 32767, samplesTold (schedStep s) = v :: samplesTold s := by
  have boundary : (advance (minSelect s) s).sampleWhole = 0 := Nat.sub_eq_zero_of_le ((stepEmits_iff s).1 h).le
  obtain ⟨hwhole, hfract⟩ := settle_samplePosition (audioTick (advance (minSelect s) s))
  rw [schedStep_eq_settle, hwhole, hfract, samplesTold_settle, audioTick_of_boundary boundary]
  obtain ⟨n1, n2, n3, n4, o1, o2, o3, o4, hf⟩ := channelEvents_frame (advance (minSelect s) s) (advance (minSelect s) s)
  rw [sampleEvent_eq, hf]
  refine ⟨?_, rfl, _, Nat.min_le_right _ _, rfl⟩
  change (advance (minSelect s) s).sampleWhole + _ = _
  rw [boundary, Nat.zero_add]
  rfl

/-- A step that ends before the sample boundary comes nearer to it, and tells no sample. -/
theorem schedStep_of_not_emits {s : State} (h : stepEmits s = false) :
    (schedStep s).sampleWhole = s.sampleWhole - minSelect s ∧ (schedStep s).sampleFract = s.sampleFract ∧
      samplesTold (schedStep s) = samplesTold s := by
  have ahead : (advance (minSelect s) s).sampleWhole ≠ 0 := by
    have ne : s.sampleWhole ≠ minSelect s := of_decide_eq_false h
    exact Nat.sub_ne_zero_of_lt ((minSelect_le_sampleWhole s).lt_of_ne ne.symm)
  obtain ⟨hwhole, hfract⟩ := settle_samplePosition (audioTick (advance (minSelect s) s))
  rw [schedStep_eq_settle, hwhole, hfract, samplesTold_settle, audioTick_of_no_boundary ahead]
  obtain ⟨n1, n2, n3, n4, o1, o2, o3, o4, hf⟩ := channelEvents_frame (advance (minSelect s) s) (advance (minSelect s) s)
  rw [hf]
  exact ⟨rfl, rfl, rfl⟩

/-- The place of the next sample boundary, in 1/256 tick since reset (`42_scheduler.md` R138). -/
def nextBoundary (s : State) : Nat := 256 * (s.now + s.sampleWhole) + s.sampleFract

theorem nextBoundary_settle (s : State) : nextBoundary (settle s) = nextBoundary s := by
  obtain ⟨hwhole, hfract⟩ := settle_samplePosition s
  rw [nextBoundary, (settle_untimed s).now, hwhole, hfract, nextBoundary]

/-- Only the samples move the boundary, each by one step of the accumulator. -/
theorem nextBoundary_schedStep (s : State) :
    nextBoundary (schedStep s) = nextBoundary s + if stepEmits s then s.cfg.step248 else 0 := by
  have near := minSelect_le_sampleWhole s
  unfold nextBoundary
  cases h : stepEmits s with
  | true =>
    obtain ⟨hwhole, hfract, -⟩ := schedStep_of_emits h
    have reached := (stepEmits_iff s).1 h
    rw [hwhole, hfract, schedStep_now, if_pos rfl]
    omega
  | false =>
    obtain ⟨hwhole, hfract, -⟩ := schedStep_of_not_emits h
    rw [hwhole, hfract, schedStep_now, if_neg Bool.false_ne_true]
    omega

theorem schedStep_sampleFract_lt {s : State} (h : s.sampleFract < 256) : (schedStep s).sampleFract < 256 := by
  cases he : stepEmits s with
  | true =>
    obtain ⟨-, hfract, -⟩ := schedStep_of_emits he
    rw [hfract]
    exact Nat.mod_lt _ (by decide)
  | false =>
    obtain ⟨-, hfract, -⟩ := schedStep_of_not_emits he
    rw [hfract]
    exact h

/-! ### The loop of `RENDER` -/

/-- The samples owed after a step. -/
def owedAfter (s : State) (owed : Nat) : Nat := if stepEmits s then owed else owed + 1

theorem owedAfter_eq_zero {s : State} {owed : Nat} : owedAfter s owed = 0 ↔ stepEmits s = true ∧ owed = 0 := by
  unfold owedAfter
  split <;> simp_all

theorem renderLoop_succ (fuel owed : Nat) (s : State) :
    renderLoop (fuel + 1) (owed + 1) s = renderLoop fuel (owedAfter s owed) (schedStep s) := rfl

@[simp] theorem renderLoop_nothing_owed (fuel : Nat) (s : State) : renderLoop fuel 0 s = some s := by
  cases fuel <;> rfl

/-- A loop that owes samples and ends has made a step. -/
theorem renderLoop_owed {fuel owed : Nat} {s t : State} (h : renderLoop fuel (owed + 1) s = some t) :
    ∃ f, fuel = f + 1 ∧ renderLoop f (owedAfter s owed) (schedStep s) = some t := by
  cases fuel with
  | zero => cases h
  | succ f => exact ⟨f, rfl, h⟩

/-- Induction over the steps of a loop that ends. -/
theorem renderLoop_induction {P : Nat → State → State → Prop} (done : ∀ s, P 0 s s)
    (more : ∀ owed s t, P (owedAfter s owed) (schedStep s) t → P (owed + 1) s t) {fuel owed : Nat} {s t : State}
    (h : renderLoop fuel owed s = some t) : P owed s t := by
  induction fuel generalizing owed s with
  | zero =>
    cases owed with
    | zero => exact Option.some.inj h ▸ done s
    | succ owed => cases h
  | succ fuel ih =>
    cases owed with
    | zero => exact Option.some.inj h ▸ done s
    | succ owed => exact more owed s t (ih h)

/-- The loop emits the samples it owes, each in range. -/
theorem renderLoop_samplesTold {fuel owed : Nat} {s t : State} (h : renderLoop fuel owed s = some t) :
    ∃ l, samplesTold t = l ++ samplesTold s ∧ l.length = owed ∧ ∀ v ∈ l, v ≤ 32767 := by
  refine renderLoop_induction (P := fun owed s t => ∃ l, samplesTold t = l ++ samplesTold s ∧ l.length = owed ∧
    ∀ v ∈ l, v ≤ 32767) (fun s => ⟨[], rfl, rfl, by simp⟩) ?_ h
  rintro owed s t ⟨l, htold, hlen, hle⟩
  cases he : stepEmits s with
  | true =>
    obtain ⟨-, -, v, hv, hstep⟩ := schedStep_of_emits he
    refine ⟨l ++ [v], by simp [htold, hstep], by simp [hlen, owedAfter, he], fun w hw => ?_⟩
    obtain hw | hw := List.mem_append.1 hw
    · exact hle w hw
    · exact List.mem_singleton.1 hw ▸ hv
  | false =>
    obtain ⟨-, -, hstep⟩ := schedStep_of_not_emits he
    exact ⟨l, by rw [htold, hstep], by simp [hlen, owedAfter, he], hle⟩

/-- Where a loop ends does not depend on its bound. -/
theorem renderLoop_unique {f g owed : Nat} {s t u : State} (h : renderLoop f owed s = some t)
    (h' : renderLoop g owed s = some u) : t = u := by
  refine renderLoop_induction (P := fun owed s t => ∀ g u, renderLoop g owed s = some u → t = u) (fun s g u h' => ?_)
    (fun owed s t ih g u h' => ?_) h g u h'
  · exact Option.some.inj ((renderLoop_nothing_owed g s).symm.trans h')
  · obtain ⟨g, -, h'⟩ := renderLoop_owed h'
    exact ih g u h'

/-- A loop for the first samples, and one for the others from where it ends, are a loop for all of them. -/
theorem renderLoop_append {f g a b : Nat} {s t u : State} (h : renderLoop f a s = some t)
    (h' : renderLoop g b t = some u) : ∃ k, renderLoop k (a + b) s = some u := by
  refine renderLoop_induction (P := fun a s t => renderLoop g b t = some u → ∃ k, renderLoop k (a + b) s = some u)
    (fun s h' => ⟨g, by rwa [Nat.zero_add]⟩) (fun a s t ih h' => ?_) h h'
  obtain ⟨k, hk⟩ := ih h'
  have owed : owedAfter s a + b = owedAfter s (a + b) := by
    unfold owedAfter
    split
    · rfl
    · exact Nat.add_right_comm a 1 b
  exact ⟨k + 1, by rw [Nat.add_right_comm, renderLoop_succ, ← owed, hk]⟩

/-! ### The tick of the last sample -/

/-- The tick on which the last of the owed samples falls (`42_scheduler.md` R138). -/
def lastSampleTick (owed : Nat) (s : State) : Nat := (nextBoundary s + (owed - 1) * s.cfg.step248) / 256

theorem schedStep_cfg (s : State) : (schedStep s).cfg = s.cfg := (schedStep_settings s).cfg

/-- A step leaves the place of the sample boundary after the owed samples. -/
theorem nextBoundary_owed_schedStep (owed : Nat) (s : State) :
    nextBoundary (schedStep s) + owedAfter s owed * s.cfg.step248 = nextBoundary s + (owed + 1) * s.cfg.step248 := by
  rw [nextBoundary_schedStep, owedAfter]
  split
  · rw [Nat.succ_mul, Nat.add_assoc, Nat.add_comm s.cfg.step248]
  · rfl

/-- While samples are owed a step leaves the tick of the last of them. -/
theorem lastSampleTick_schedStep {owed : Nat} {s : State} (h : 0 < owedAfter s owed) :
    lastSampleTick (owedAfter s owed) (schedStep s) = lastSampleTick (owed + 1) s := by
  have boundary := nextBoundary_owed_schedStep owed s
  obtain ⟨o, ho⟩ := Nat.exists_eq_add_of_lt h
  rw [ho, Nat.zero_add, Nat.succ_mul, Nat.succ_mul] at boundary
  rw [lastSampleTick, lastSampleTick, ho, schedStep_cfg, Nat.zero_add, Nat.add_sub_cancel, Nat.add_sub_cancel]
  exact congrArg (· / 256) (by omega)

theorem lastSampleTick_one {s : State} (h : s.sampleFract < 256) : lastSampleTick 1 s = s.now + s.sampleWhole := by
  rw [lastSampleTick, nextBoundary, Nat.sub_self, Nat.zero_mul]
  omega

theorem nextSample_le_lastSampleTick (owed : Nat) (s : State) : s.now + s.sampleWhole ≤ lastSampleTick owed s := by
  rw [lastSampleTick, nextBoundary]
  omega

/-- The loop moves the sample boundary by one step of the accumulator for each sample. -/
theorem renderLoop_nextBoundary {fuel owed : Nat} {s t : State} (h : renderLoop fuel owed s = some t) :
    nextBoundary t = nextBoundary s + owed * s.cfg.step248 := by
  refine renderLoop_induction (P := fun owed s t => nextBoundary t = nextBoundary s + owed * s.cfg.step248)
    (fun s => by rw [Nat.zero_mul, Nat.add_zero]) (fun owed s t ih => ?_) h
  rw [ih, schedStep_cfg, nextBoundary_owed_schedStep]

/-- The loop ends on the tick of its last sample. -/
theorem renderLoop_now {fuel owed : Nat} {s t : State} (hf : s.sampleFract < 256)
    (h : renderLoop fuel owed s = some t) : t.now = if owed = 0 then s.now else lastSampleTick owed s := by
  refine renderLoop_induction (P := fun owed s t => s.sampleFract < 256 →
    t.now = if owed = 0 then s.now else lastSampleTick owed s) (fun s _ => rfl) (fun owed s t ih hf => ?_) h hf
  rw [ih (schedStep_sampleFract_lt hf), if_neg (Nat.succ_ne_zero owed)]
  by_cases last : owedAfter s owed = 0
  · obtain ⟨he, rfl⟩ := owedAfter_eq_zero.1 last
    rw [if_pos last, schedStep_now, ← (stepEmits_iff s).1 he, lastSampleTick_one hf]
  · rw [if_neg last, lastSampleTick_schedStep (Nat.pos_of_ne_zero last)]

/-- `RENDER` ends on the tick of its last sample: its closing `Settle` moves neither time nor the sample position. -/
theorem exec_render_grid {n : Nat} {s t : State} (hf : s.sampleFract < 256) (hn : 0 < n)
    (h : exec (.render n) s = .next t) :
    t.now = lastSampleTick n s ∧ nextBoundary t = nextBoundary s + n * s.cfg.step248 := by
  obtain ⟨u, hu, ht⟩ := exec_render_next h
  rw [ht, (settle_untimed u).now, nextBoundary_settle]
  exact ⟨(renderLoop_now hf hu).trans (if_neg hn.ne'), renderLoop_nextBoundary hu⟩

/-- At reset the first sample boundary is one step of the accumulator away (`10_state.md` R33, R35). -/
theorem nextBoundary_resetFor (g : Config) (e : HostSide) : nextBoundary (State.resetFor g e) = g.step248 := by
  have position : nextBoundary (State.resetFor g e) = 256 * (0 + g.step248 >>> 8) + g.step248 % 256 := rfl
  rw [position, Nat.shiftRight_eq_div_pow]
  omega

/-- Settles O32. -/
theorem samplesFallOnTheFixedPointGrid : Obligations.SamplesFallOnTheFixedPointGrid := by
  refine ⟨fun s t n hinv hn h => ?_, fun g e t n hvalid hn h => ?_⟩
  · have grid := exec_render_grid hinv.fractBound hn h
    simpa only [lastSampleTick, nextBoundary] using grid
  · have hf : (State.resetFor g e).sampleFract < 256 := Nat.mod_lt _ (by decide)
    obtain ⟨hnow, -⟩ := exec_render_grid hf hn h
    obtain ⟨n, rfl⟩ := Nat.exists_eq_succ_of_ne_zero hn.ne'
    have hcfg : (State.resetFor g e).cfg = g := rfl
    rw [hnow, lastSampleTick, nextBoundary_resetFor, hcfg, Nat.succ_sub_one, Nat.succ_mul, Nat.add_comm, Config.step248]

end Sys2Proof.Machine
end

section
/-!
PROOFS. The end of `RENDER` (`42_scheduler.md` R144, R145): what the scheduler needs of a state and keeps; after one step
every further one passes time or emits, so the loop ends within its bound; and it can be split anywhere.
-/

namespace Sys2Proof.Machine

/-! ### What the scheduler needs and keeps -/

/-- What the scheduler needs of a state: it is settled, every armed timer has a positive period, every pending conversion a
target, no divisor is 0, and a sample takes time. -/
structure Schedulable (s : State) : Prop where
  periods : ∀ k d, (s.timer k).deadline = some d → ∃ p, (s.timer k).period = some p ∧ 0 < p
  targets : ∀ i d, (s.pot i).deadline = some d → (s.pot i).target.isSome = true
  divisors : s.DivisorsPositive
  sampleStep : 0 < s.cfg.step248
  settled : s.Settled

/-- The states of the invariant are schedulable. -/
theorem State.Inv.schedulable {s : State} (h : s.Inv) : Schedulable s where
  periods k d hd := by
    have armed : (s.timer k).period.isSome = true := by rw [← h.timersArmed k, hd, Option.isSome_some]
    obtain ⟨p, hp⟩ := Option.isSome_iff_exists.1 armed
    exact ⟨p, hp, Nat.zero_lt_of_lt (h.timerPeriodLong k p hp)⟩
  targets i d hd := by
    obtain ⟨-, t, ht, -⟩ := h.potPending i d hd
    rw [ht, Option.isSome_some]
  divisors c := by
    rw [h.divisorFormula c, divisorOf, ticks_isZero_at]
    exact decide_eq_false (Nat.ne_of_gt (Nat.le_max_left 1 _))
  sampleStep := by
    obtain ⟨-, -, hstep, -⟩ := h.cfgValid
    exact hstep
  settled := h.settled

/-- A step does not pass a deadline (`42_scheduler.md` R131, R132). -/
theorem now_add_minSelect_le {s : State} {d : Nat} (hs : s.Settled) (hd : d ∈ deadlines s) :
    s.now + minSelect s ≤ d := by
  have near : minSelect s ≤ d - s.now := minSelect_le_of_mem (mem_candidates_iff.2 (.inr (.inr ⟨d, hd, rfl⟩)))
  have ahead := hs d hd
  omega

theorem timer_mem_deadlines {s : State} {k : TimerId} {d : Nat} (h : (s.timer k).deadline = some d) : d ∈ deadlines s := by
  cases k <;> simp_all [deadlines]

/-- The deadlines that a step leaves lie ahead (`42_scheduler.md` R143): a timer comes due on its tick at the latest. -/
theorem Schedulable.settled_schedStep {s : State} (h : Schedulable s) : (schedStep s).Settled := by
  obtain ⟨hnow, htimer, hpot⟩ := audioTick_others (advance (minSelect s) s)
  rw [schedStep_eq_settle]
  refine settleLeavesNothingDue _ (fun k d hd => ?_) (fun i d hd => ?_)
  · have timer : (audioTick (advance (minSelect s) s)).timer k = s.timer k := by
      rw [htimer]
      cases k <;> rfl
    rw [timer] at hd ⊢
    obtain ⟨p, hp, hpos⟩ := h.periods k d hd
    have now : (audioTick (advance (minSelect s) s)).now = s.now + minSelect s := hnow
    exact ⟨p, hp, by rw [now]; exact (now_add_minSelect_le h.settled (timer_mem_deadlines hd)).trans_lt (by omega)⟩
  · have slot : (audioTick (advance (minSelect s) s)).pot i = s.pot i := congrArg Prod.snd (congrFun hpot i)
    rw [slot] at hd ⊢
    exact h.targets i d hd

/-- A step keeps what the scheduler needs. -/
theorem Schedulable.after_schedStep {s : State} (h : Schedulable s) : Schedulable (schedStep s) where
  periods k d hd := by
    rw [schedStep_timer] at hd ⊢
    obtain ⟨e, he⟩ := Timer.deadline_of_movedIfDue hd
    rw [Timer.movedIfDue_period]
    exact h.periods k e he
  targets i d hd := by
    rw [schedStep_pot] at hd ⊢
    rw [completedIfDue_target]
    exact h.targets i d (deadline_of_completedIfDue hd)
  divisors := h.divisors.of_channelSettings_eq (schedStep_settings s).channelSettings_eq
  sampleStep := by
    rw [schedStep_cfg]
    exact h.sampleStep
  settled := h.settled_schedStep

theorem Schedulable.after_renderLoop {fuel owed : Nat} {s t : State} (h : Schedulable s)
    (hloop : renderLoop fuel owed s = some t) : Schedulable t :=
  renderLoop_keeps (P := Schedulable) (fun _ => Schedulable.after_schedStep) fuel owed s t h hloop

/-! ### The loop ends -/

/-- In a settled state whose counters run a step passes time or emits a sample (`42_scheduler.md` R145). -/
theorem minSelect_pos_of_not_emits {s : State} (hs : s.Settled) (hrun : s.CountersRunning) (h : stepEmits s = false) :
    0 < minSelect s := by
  have ahead : s.sampleWhole ≠ minSelect s := of_decide_eq_false h
  have sample : 0 < s.sampleWhole := Nat.zero_lt_of_lt ((minSelect_le_sampleWhole s).lt_of_ne ahead.symm)
  exact nothingWaiting_iff.2 ⟨hrun, sample, hs⟩ _ (minSelect_mem_candidates s)

/-- A bound on the steps of a loop whose every step passes time or emits: the ticks up to the last sample, and the
samples. -/
def stepsLeft (owed : Nat) (s : State) : Nat := lastSampleTick owed s - s.now + owed

theorem stepsLeft_schedStep_le {owed : Nat} {s : State} (h : 0 < owedAfter s owed) :
    stepsLeft (owedAfter s owed) (schedStep s) ≤ stepsLeft (owed + 1) s := by
  have owedLe : owedAfter s owed ≤ owed + 1 := by
    unfold owedAfter
    split <;> omega
  rw [stepsLeft, stepsLeft, lastSampleTick_schedStep h, schedStep_now]
  omega

theorem stepsLeft_schedStep_lt {owed : Nat} {s : State} (h : 0 < owedAfter s owed)
    (hprogress : stepEmits s = false → 0 < minSelect s) :
    stepsLeft (owedAfter s owed) (schedStep s) < stepsLeft (owed + 1) s := by
  have near := minSelect_le_sampleWhole s
  have last := nextSample_le_lastSampleTick (owed + 1) s
  rw [stepsLeft, stepsLeft, lastSampleTick_schedStep h, schedStep_now]
  cases he : stepEmits s with
  | true =>
    have owedLt : owedAfter s owed = owed := if_pos he
    omega
  | false =>
    have owedEq : owedAfter s owed = owed + 1 := if_neg (by simp [he])
    have := hprogress he
    omega

/-- Once the counters run the loop ends after at most so many steps. -/
theorem Schedulable.renderLoop_ends {fuel owed : Nat} {s : State} (h : Schedulable s) (hrun : s.CountersRunning)
    (hfuel : stepsLeft owed s ≤ fuel) : ∃ t, renderLoop fuel owed s = some t := by
  induction fuel generalizing owed s with
  | zero =>
    have none : owed = 0 := Nat.eq_zero_of_le_zero ((Nat.le_add_left _ _).trans hfuel)
    exact ⟨s, by rw [none, renderLoop_nothing_owed]⟩
  | succ fuel ih =>
    cases owed with
    | zero => exact ⟨s, renderLoop_nothing_owed _ s⟩
    | succ owed =>
      rw [renderLoop_succ]
      obtain last | more := Nat.eq_zero_or_pos (owedAfter s owed)
      · exact ⟨_, by rw [last, renderLoop_nothing_owed]⟩
      · have fewer := stepsLeft_schedStep_lt more (minSelect_pos_of_not_emits h.settled hrun)
        exact ih h.after_schedStep (schedStep_running h.divisors) (Nat.le_of_lt_succ (fewer.trans_le hfuel))

/-- The model's bound leaves room for one step more than the loop can take once the counters run. -/
theorem stepsLeft_lt_renderFuel (n : Nat) {s : State} (hstep : 0 < s.cfg.step248) :
    stepsLeft (n + 1) s < renderFuel (n + 1) s := by
  have perSample : s.sampleFract + s.cfg.step248 ≤ (s.sampleFract + 255 + s.cfg.step248) / 256 * 256 := by omega
  have samples : n * s.cfg.step248 ≤ n * ((s.sampleFract + 255 + s.cfg.step248) / 256 * 256) :=
    Nat.mul_le_mul_left n (by omega)
  have oneMore := Nat.add_one_mul n ((s.sampleFract + 255 + s.cfg.step248) / 256)
  rw [← Nat.mul_assoc] at samples
  rw [stepsLeft, renderFuel, lastSampleTick, nextBoundary, Nat.add_sub_cancel]
  omega

/-- `RENDER` completes: the first step may neither pass time nor emit, after it the counters run (`42_scheduler.md` R145). -/
theorem Schedulable.exec_render {s : State} (h : Schedulable s) (n : Nat) :
    ∃ t, renderLoop (renderFuel n s) n s = some t ∧ exec (.render n) s = .next t := by
  have ends : ∃ t, renderLoop (renderFuel n s) n s = some t := by
    cases n with
    | zero => exact ⟨s, renderLoop_nothing_owed _ s⟩
    | succ n =>
      have room := stepsLeft_lt_renderFuel n h.sampleStep
      obtain ⟨fuel, hfuel⟩ := Nat.exists_eq_succ_of_ne_zero (Nat.ne_zero_of_lt room)
      rw [hfuel, renderLoop_succ]
      obtain last | more := Nat.eq_zero_or_pos (owedAfter s n)
      · exact ⟨_, by rw [last, renderLoop_nothing_owed]⟩
      · have left := stepsLeft_schedStep_le more
        exact h.after_schedStep.renderLoop_ends (schedStep_running h.divisors) (by omega)
  obtain ⟨t, ht⟩ := ends
  refine ⟨t, ht, ?_⟩
  rw [exec, execRender, ht]
  exact congrArg Host.Outcome.next (settle_of_settled (h.after_renderLoop ht).settled)

/-! ### Splitting `RENDER` -/

/-- Settles O31: the two loops join, and the loop for all samples ends where they do. -/
theorem renderSplitsAnywhere : Obligations.RenderSplitsAnywhere := by
  refine ⟨fun s t a b hinv h => ?_, fun s hs => ?_⟩
  · have start := hinv.schedulable
    obtain ⟨u, hu, hnext⟩ := start.exec_render a
    obtain rfl : u = t := Host.Outcome.next.inj (hnext.symm.trans h)
    obtain ⟨v, hv, hrest⟩ := (start.after_renderLoop hu).exec_render b
    obtain ⟨w, hw, hall⟩ := start.exec_render (a + b)
    obtain ⟨fuel, hjoined⟩ := renderLoop_append hu hv
    rw [hall, hrest, renderLoop_unique hw hjoined]
  · rw [exec, execRender, renderLoop_nothing_owed]
    exact congrArg Host.Outcome.next (settle_of_settled hs)

/-! ### What `RENDER` tells and leaves -/

/-- The part of the trace in front of the old one is what the host was told since. -/
theorem newEvents_of_append {s t : State} {l : List Logged} (h : t.env.trace = l ++ s.env.trace) : newEvents s t = l := by
  rw [newEvents, h, List.length_append, Nat.add_sub_cancel, List.take_left]

theorem samplesIn_append (l m : List Logged) : samplesIn (l ++ m) = samplesIn l ++ samplesIn m := List.filterMap_append

/-- A `RENDER` moves no paddle target. -/
theorem exec_render_target {n : Nat} {s t : State} (h : exec (.render n) s = .next t) (i : Fin 8) :
    (t.pot i).target = (s.pot i).target := by
  obtain ⟨u, hu, ht⟩ := exec_render_next h
  have keep (v : State) (hv : (v.pot i).target = (s.pot i).target) : ((schedStep v).pot i).target = (s.pot i).target := by
    rw [schedStep_pot, completedIfDue_target, potBitAndSlot_snd, hv]
  have loop := renderLoop_keeps (P := fun v => (v.pot i).target = (s.pot i).target) keep _ _ s u rfl hu
  rw [ht, settle_pot, completedIfDue_target, potBitAndSlot_snd, loop]

/-- The samples a `RENDER` tells: as many as asked for, each in range. -/
theorem exec_render_samplesTold {n : Nat} {s t : State} (h : exec (.render n) s = .next t) :
    ∃ l, samplesTold t = l ++ samplesTold s ∧ l.length = n ∧ ∀ v ∈ l, v ≤ 32767 := by
  obtain ⟨u, hu, ht⟩ := exec_render_next h
  rw [ht, samplesTold_settle]
  exact renderLoop_samplesTold hu

/-- Settles O30: the loop ends, tells its samples, and leaves the settings and the paddle targets. -/
theorem renderCompletesWithItsSamples : Obligations.RenderCompletesWithItsSamples := by
  intro s n hinv
  obtain ⟨t, -, h⟩ := hinv.schedulable.exec_render n
  have same := exec_render_settings h
  obtain ⟨l, henv⟩ := same.env
  have htrace : t.env.trace = l ++ s.env.trace := by rw [henv]
  have hnew := newEvents_of_append htrace
  obtain ⟨samples, htold, hlength, hrange⟩ := exec_render_samplesTold h
  rw [samplesTold, samplesTold, htrace, samplesIn_append] at htold
  obtain rfl := List.append_cancel_right htold
  obtain ⟨h9, h17, hlast⟩ := same.random
  obtain ⟨hstart, hunit⟩ := same.potStart
  refine ⟨t, h, by rw [hnew, hlength], by rw [hnew]; exact hrange, by rw [hnew, htrace], exec_render_now_le h, same.cfg,
    same.channels, same.audctl, same.skctl, same.irqen, same.kbcode, same.serout, same.serin, same.periods, h9, h17, hlast,
    exec_render_target h, hstart, hunit, ?_⟩
  rw [htrace, henv]

end Sys2Proof.Machine
end

section
/-!
PROOFS. Timers and interrupts (`43_timer_irq.md`): the writes STIMER and IRQEN, one due expiry, and the grid that the deadlines of a
timer keep over `RENDER`.
-/

namespace Sys2Proof.Machine

/-! ### The register writes and the due expiries -/

/-- Settles O38. -/
theorem irqenWriteAcknowledgesAndEnables : Obligations.IrqenWriteAcknowledgesAndEnables := by
  intro s v hs
  rw [exec_wIrqen_of_settled hs, acknowledgeEnable]

theorem raiseIrq_eq_raised (bits : Byte) (s : State) : raiseIrq bits s = Reference.raised bits s := rfl

/-- Settles O40: each of the three events is the expiry of its timer. -/
theorem dueTimerExpiryReschedulesAndRaises : Obligations.DueTimerExpiryReschedulesAndRaises := by
  intro s d p hd
  refine ⟨fun h => ?_, fun h => ?_, fun h => ?_⟩
  · rw [exec, execEvT1, timerExpiry_of_due .t1 s d p h hd, raiseIrq_eq_raised]
    rfl
  · rw [exec, execEvT2, timerExpiry_of_due .t2 s d p h hd, raiseIrq_eq_raised]
    rfl
  · rw [exec, execEvT4, timerExpiry_of_due .t4 s d p h hd, raiseIrq_eq_raised]
    rfl

theorem periodOf_pos {s : State} {d : Ticks} {p : Nat} (h : periodOf s d = some p) : 0 < p := by
  unfold periodOf at h
  split at h
  · split at h
    · next hlong => exact Option.some.inj h ▸ Nat.zero_lt_of_lt hlong
    · cases h
  · cases h

theorem timerPeriod_pos {s : State} {k : TimerId} {p : Nat} (h : timerPeriod s k = some p) : 0 < p := by
  cases k with
  | t1 =>
    simp only [timerPeriod] at h
    split at h <;> exact periodOf_pos h
  | t2 | t4 => exact periodOf_pos h

theorem rearmAll_timer (s : State) (k : TimerId) : (rearmAll s).timer k = armedTimer s.now (timerPeriod s k) := by
  cases k <;> rfl

/-- Every rearmed timer expires a full period ahead, and the other deadlines stay. -/
theorem rearmAll_settled {s : State} (h : s.Settled) : (rearmAll s).Settled := by
  obtain ⟨-, hr, hc, hp⟩ := h.ahead
  refine State.settled_of_ahead (fun k d hd => ?_) hr hc hp
  rw [rearmAll_timer] at hd
  obtain ⟨p, hperiod, rfl⟩ := Option.map_eq_some_iff.1 hd
  exact Nat.lt_add_of_pos_right (timerPeriod_pos hperiod)

/-- The record a divisor gives a timer (`43_timer_irq.md` R152). -/
theorem armedTimer_periodOf (s : State) (now d : Nat) : armedTimer now (periodOf s (.at d)) =
    if s.cfg.timerMin < d then { period := some d, deadline := some (now + d) } else { period := none, deadline := none } := by
  by_cases h : s.cfg.timerMin < d <;> simp [periodOf, armedTimer, h]

/-- Settles O37: the timers of a rearm are those of the divisors, and nothing is due after it. -/
theorem stimerRearmsAllTimers : Obligations.StimerRearmsAllTimers := by
  intro s v d1 d2 d4 hs h1 h2 h4
  have period1 : timerPeriod s .t1 = periodOf s (.at (if s.audctl.getLsbD 4 then d2 else d1)) := by
    rw [timerPeriod, audctlJoin12, h1, h2]
    split <;> rfl
  have period2 : timerPeriod s .t2 = periodOf s (.at d2) := by rw [timerPeriod, h2]
  have period4 : timerPeriod s .t4 = periodOf s (.at d4) := by rw [timerPeriod, h4]
  rw [exec, execWStimer, regWriteWith, settle_of_settled (rearmAll_settled hs), rearmAll, period1, period2, period4]
  simp only [armedTimer_periodOf]

/-! ### The deadline of a timer over `RENDER` -/

/-- Timer `k` of period `p` stands some whole periods past the deadline `d`, no more than time has reached. -/
def MovedByPeriods (k : TimerId) (p d : Nat) (s : State) : Prop :=
  ∃ m, s.timer k = { period := some p, deadline := some (d + m * p) } ∧ (m ≠ 0 → d + (m - 1) * p ≤ s.now)

/-- A step keeps the grid of expiries: a due timer moves on by one period, and only when due. -/
theorem MovedByPeriods.after_schedStep {k : TimerId} {p d : Nat} {s : State} (h : MovedByPeriods k p d s) :
    MovedByPeriods k p d (schedStep s) := by
  obtain ⟨m, htimer, hpast⟩ := h
  rw [MovedByPeriods, schedStep_timer, schedStep_now, htimer]
  by_cases hdue : d + m * p ≤ s.now + minSelect s
  · refine ⟨m + 1, ?_, fun _ => by rwa [Nat.add_sub_cancel]⟩
    rw [Timer.movedIfDue_of_due rfl rfl hdue, Nat.succ_mul, Nat.add_assoc]
  · refine ⟨m, Timer.movedIfDue_of_not_due fun e q he _ => ?_, fun hm => Nat.le_add_right_of_le (hpast hm)⟩
    exact Option.some.inj he ▸ Nat.lt_of_not_le hdue

/-- Settles O42: the loop keeps the grid of expiries, and what it leaves is settled. -/
theorem timerExpiriesAreWholePeriods : Obligations.TimerExpiriesAreWholePeriods := by
  intro s t k n d p hinv htimer h
  obtain ⟨u, hu, hnext⟩ := hinv.schedulable.exec_render n
  obtain rfl : u = t := Host.Outcome.next.inj (hnext.symm.trans h)
  have start : MovedByPeriods k p d s := ⟨0, by rw [htimer, Nat.zero_mul, Nat.add_zero], fun h => absurd rfl h⟩
  obtain ⟨m, hmoved, hpast⟩ :=
    renderLoop_keeps (P := MovedByPeriods k p d) (fun _ => MovedByPeriods.after_schedStep) _ _ s u start hu
  obtain ⟨ahead, -⟩ := (hinv.schedulable.after_renderLoop hu).settled.ahead
  exact ⟨m, hmoved, ahead k _ (by rw [hmoved]), hpast⟩

end Sys2Proof.Machine
end

section
/-!
PROOFS. The interrupt sources of a tick (`43_timer_irq.md` R156, R161, `44_serial.md` R172, R173): which of them the deadlines of a
state raise on which tick, that a scheduler step raises just those of the tick it reaches, and that it leaves those of later
ticks.
-/

namespace Sys2Proof.Machine

/-! ### Raising one source -/

/-- The IRQEN and IRQST bit of source `i` (`10_state.md` R23, R24). -/
def sourceBit (i : Fin 8) : Byte := BitVec.twoPow 8 i

theorem getLsbD_sourceBit (i j : Fin 8) : (sourceBit i).getLsbD j = decide (i = j) := by
  rw [sourceBit, BitVec.getLsbD_twoPow, decide_eq_true i.isLt, Bool.true_and]
  exact decide_eq_decide.2 Fin.ext_iff.symm

theorem sourceBit_and (i : Fin 8) (enables : Byte) :
    sourceBit i &&& enables = if enables.getLsbD i then sourceBit i else 0#8 := by
  rw [BitVec.and_comm, sourceBit, BitVec.and_twoPow]

theorem sourceBit_ne_zero (i : Fin 8) : sourceBit i ≠ 0#8 := by
  revert i
  decide

/-- IRQST after the sources `l`, newest first, became pending on top of `q`; each comes with its tick. -/
def pendingAfter (q : Byte) : List (Nat × Fin 8) → Byte
  | [] => q
  | c :: l => pendingAfter q l ||| sourceBit c.2

/-- The sink calls, newest first, that the sources `l` make on top of the pending bits `q` (`43_timer_irq.md` R156). -/
def callsOf (enables q : Byte) : List (Nat × Fin 8) → List (Nat × Byte)
  | [] => []
  | c :: l => (c.1, pendingAfter q (c :: l) &&& enables) :: callsOf enables q l

theorem pendingAfter_append (q : Byte) (m l : List (Nat × Fin 8)) :
    pendingAfter q (m ++ l) = pendingAfter (pendingAfter q l) m := by
  induction m with
  | nil => rfl
  | cons c m ih => rw [List.cons_append, pendingAfter, pendingAfter, ih]

theorem callsOf_append (enables q : Byte) (m l : List (Nat × Fin 8)) :
    callsOf enables q (m ++ l) = callsOf enables (pendingAfter q l) m ++ callsOf enables q l := by
  induction m with
  | nil => rfl
  | cons c m ih => simp only [List.cons_append, callsOf, pendingAfter, pendingAfter_append, ih]

/-- From `s` to `t` exactly the sources `l` became pending, newest first, each with one call of the sink. -/
structure Raised (l : List (Nat × Fin 8)) (s t : State) : Prop where
  irqen : t.irqen = s.irqen
  irqst : t.irqst = pendingAfter s.irqst l
  calls : irqCallsIn t.env.trace = callsOf s.irqen s.irqst l ++ irqCallsIn s.env.trace

theorem Raised.refl (s : State) : Raised [] s s := ⟨rfl, rfl, rfl⟩

theorem Raised.trans {l m : List (Nat × Fin 8)} {s t u : State} (h : Raised l s t) (h' : Raised m t u) :
    Raised (m ++ l) s u where
  irqen := h'.irqen.trans h.irqen
  irqst := by rw [h'.irqst, h.irqst, pendingAfter_append]
  calls := by rw [h'.calls, h.calls, h.irqen, h.irqst, callsOf_append, List.append_assoc]

/-- Source `i` on tick `n`, if it happens there and is enabled. -/
def raiseIf (enables : Byte) (n : Nat) (i : Fin 8) (happens : Bool) : List (Nat × Fin 8) :=
  if enables.getLsbD i && happens then [(n, i)] else []

@[simp] theorem raiseIf_false (enables : Byte) (n : Nat) (i : Fin 8) : raiseIf enables n i false = [] := by
  rw [raiseIf, Bool.and_false, if_neg Bool.false_ne_true]

theorem mem_raiseIf {enables : Byte} {n : Nat} {i : Fin 8} {happens : Bool} {c : Nat × Fin 8} :
    c ∈ raiseIf enables n i happens ↔ c = (n, i) ∧ enables.getLsbD i = true ∧ happens = true := by
  unfold raiseIf
  split <;> simp_all

theorem length_raiseIf (enables : Byte) (n : Nat) (i : Fin 8) (happens : Bool) :
    (raiseIf enables n i happens).length = if enables.getLsbD i && happens then 1 else 0 := by
  unfold raiseIf
  split <;> rfl

theorem raiseIrq_raised (i : Fin 8) (s : State) : Raised (raiseIf s.irqen s.now i true) s (raiseIrq (sourceBit i) s) := by
  rw [raiseIrq_eq, sourceBit_and, raiseIf]
  cases s.irqen.getLsbD i with
  | true =>
    rw [if_pos rfl, if_neg (sourceBit_ne_zero i)]
    exact ⟨rfl, rfl, rfl⟩
  | false => exact .refl s

/-! ### The sources of a tick -/

/-- The interrupt source of a timer (`10_state.md` R23). -/
def timerSource : TimerId → Fin 8
  | .t1 => 0
  | .t2 => 1
  | .t4 => 2

theorem timerIrqBit_eq (k : TimerId) : timerIrqBit k = sourceBit (timerSource k) := by
  cases k <;> rfl

/-- The enabled sources that tick `n` raises as the deadlines of `s` stand, in the order of `Settle` with the newest first
(`42_scheduler.md` R143). -/
def raisesOn (s : State) (n : Nat) : List (Nat × Fin 8) :=
  raiseIf s.irqen n 3 (s.serComplete == some n) ++ (raiseIf s.irqen n 4 (s.serReady == some n) ++
    (raiseIf s.irqen n 2 (Reference.expiresAt (s.timer .t4) n) ++
      (raiseIf s.irqen n 1 (Reference.expiresAt (s.timer .t2) n) ++
        raiseIf s.irqen n 0 (Reference.expiresAt (s.timer .t1) n))))

/-- What a tick raises is decided by the enables and by what happens on it. -/
theorem raisesOn_congr {s t : State} {n : Nat} (irqen : t.irqen = s.irqen)
    (timer : ∀ k, Reference.expiresAt (t.timer k) n = Reference.expiresAt (s.timer k) n)
    (ready : (t.serReady == some n) = (s.serReady == some n))
    (complete : (t.serComplete == some n) = (s.serComplete == some n)) : raisesOn t n = raisesOn s n := by
  simp only [raisesOn, irqen, timer, ready, complete]

/-- No deadline of a timer or of the serial unit lies before tick `n`. -/
structure DeadlinesFrom (n : Nat) (s : State) : Prop where
  timer : ∀ k d, (s.timer k).deadline = some d → n ≤ d
  ready : ∀ d, s.serReady = some d → n ≤ d
  complete : ∀ d, s.serComplete = some d → n ≤ d

/-- Both states hold the same enables and the same deadlines of interrupt sources. -/
structure SameSources (s t : State) : Prop where
  irqen : t.irqen = s.irqen
  timer : ∀ k, t.timer k = s.timer k
  ready : t.serReady = s.serReady
  complete : t.serComplete = s.serComplete

theorem SameSources.raisesOn {s t : State} (h : SameSources s t) (n : Nat) : raisesOn t n = raisesOn s n :=
  raisesOn_congr h.irqen (fun k => by rw [h.timer]) (by rw [h.ready]) (by rw [h.complete])

theorem SameSources.deadlinesFrom {n : Nat} {s t : State} (h : SameSources s t) (hs : DeadlinesFrom n s) :
    DeadlinesFrom n t where
  timer k := by
    rw [h.timer]
    exact hs.timer k
  ready := by
    rw [h.ready]
    exact hs.ready
  complete := by
    rw [h.complete]
    exact hs.complete

theorem expiresAt_of_ahead {k : Timer} {n : Nat} (h : ∀ d p, k.deadline = some d → k.period = some p → n < d) :
    Reference.expiresAt k n = false := by
  unfold Reference.expiresAt
  split
  · next hp hd => rw [decide_eq_false (Nat.not_le.2 (h _ _ hd hp)), Bool.false_and]
  · rfl

theorem expiresAt_deadline {k : Timer} {p d : Nat} (hp : k.period = some p) (hd : k.deadline = some d) :
    Reference.expiresAt k d = true := by
  simp [Reference.expiresAt, hp, hd]

/-- A tick before every deadline raises nothing. -/
theorem raisesOn_eq_nil {s : State} {n : Nat} (h : DeadlinesFrom (n + 1) s) : raisesOn s n = [] := by
  have timer (k : TimerId) : Reference.expiresAt (s.timer k) n = false := 
    expiresAt_of_ahead fun d _ hd _ => h.timer k d hd
  have ready : (s.serReady == some n) = false := by
    simpa using fun e => Nat.not_succ_le_self n (h.ready n e)
  have complete : (s.serComplete == some n) = false := by
    simpa using fun e => Nat.not_succ_le_self n (h.complete n e)
  simp only [raisesOn, ready, complete, timer, raiseIf_false, List.append_nil]

/-! ### `Settle` raises the sources of its tick -/

theorem timerExpiry_raised {k : TimerId} {s : State} (h : ∀ d, (s.timer k).deadline = some d → s.now ≤ d) :
    Raised (raiseIf s.irqen s.now (timerSource k) (Reference.expiresAt (s.timer k) s.now)) s (timerExpiry k s) := by
  by_cases hdue : ∃ d p, (s.timer k).deadline = some d ∧ (s.timer k).period = some p ∧ d ≤ s.now
  · obtain ⟨d, p, hd, hp, hle⟩ := hdue
    have now : s.now = d := Nat.le_antisymm (h d hd) hle
    rw [timerExpiry_of_due k s d p (by rw [← hd, ← hp]) hle, timerIrqBit_eq, now, expiresAt_deadline hp hd]
    have raised := raiseIrq_raised (timerSource k) (s.setTimer k { period := some p, deadline := some (d + p) })
    rw [State.setTimer_irqen, State.setTimer_now, now] at raised
    have moved : Raised [] s (s.setTimer k { period := some p, deadline := some (d + p) }) :=
      ⟨State.setTimer_irqen _ _ _, State.setTimer_irqst _ _ _, by rw [State.setTimer_env]; rfl⟩
    simpa using moved.trans raised
  · have ahead (d p : Nat) (hd : (s.timer k).deadline = some d) (hp : (s.timer k).period = some p) : s.now < d :=
      Nat.lt_of_not_le fun hle => hdue ⟨d, p, hd, hp, hle⟩
    rw [timerExpiry_of_no_expiry ahead, expiresAt_of_ahead ahead, raiseIf_false]
    exact .refl s

/-- A serial deadline that is not overdue is due just on its tick. -/
theorem due_eq_beq {now : Nat} {o : Option Nat} (h : ∀ d, o = some d → now ≤ d) : due now o = (o == some now) := by
  cases o with
  | none => rfl
  | some d =>
    have := h d rfl
    rw [due, Option.some_beq_some, beq_eq_decide, decide_eq_decide]
    omega

theorem serialReady_raised {s : State} (h : ∀ d, s.serReady = some d → s.now ≤ d) :
    Raised (raiseIf s.irqen s.now 4 (s.serReady == some s.now)) s (serialReady s) := by
  rw [serialReady, due_eq_beq h]
  cases s.serReady == some s.now with
  | false =>
    rw [raiseIf_false]
    exact .refl s
  | true =>
    have raised := raiseIrq_raised 4 { s with serReady := none }
    exact ⟨raised.irqen, raised.irqst, raised.calls⟩

theorem serialComplete_raised {s : State} (h : ∀ d, s.serComplete = some d → s.now ≤ d) :
    Raised (raiseIf s.irqen s.now 3 (s.serComplete == some s.now)) s (serialComplete s) := by
  rw [serialComplete, due_eq_beq h]
  cases s.serComplete == some s.now with
  | false =>
    rw [raiseIf_false]
    exact .refl s
  | true =>
    have raised := raiseIrq_raised 3 { s with serComplete := none, skstat := s.skstat &&& ~~~skstatBusy }
    exact ⟨raised.irqen, raised.irqst, raised.calls⟩

theorem settleTimers_raised {s : State} (h : DeadlinesFrom s.now s) :
    Raised (raiseIf s.irqen s.now 2 (Reference.expiresAt (s.timer .t4) s.now) ++
      (raiseIf s.irqen s.now 1 (Reference.expiresAt (s.timer .t2) s.now) ++
        raiseIf s.irqen s.now 0 (Reference.expiresAt (s.timer .t1) s.now))) s (settleTimers s) := by
  have first := timerExpiry_raised (h.timer .t1)
  have now1 : (timerExpiry .t1 s).now = s.now := (timerExpiry_untimed _ _).now
  have t2 : (timerExpiry .t1 s).timer .t2 = s.timer .t2 := timerExpiry_timer .t1 .t2 s
  have second : Raised _ _ (timerExpiry .t2 (timerExpiry .t1 s)) := timerExpiry_raised (by rw [t2, now1]; exact h.timer .t2)
  rw [t2, now1, first.irqen] at second
  have now2 : (timerExpiry .t2 (timerExpiry .t1 s)).now = s.now := (timerExpiry_untimed _ _).now.trans now1
  have t4 : (timerExpiry .t2 (timerExpiry .t1 s)).timer .t4 = s.timer .t4 :=
    (timerExpiry_timer .t2 .t4 _).trans (timerExpiry_timer .t1 .t4 s)
  have third : Raised _ _ (timerExpiry .t4 (timerExpiry .t2 (timerExpiry .t1 s))) :=
    timerExpiry_raised (by rw [t4, now2]; exact h.timer .t4)
  rw [t4, now2, second.irqen, first.irqen] at third
  exact (first.trans second).trans third

/-- Where no deadline has been passed, `Settle` raises the sources of its tick. -/
theorem settle_raised {s : State} (h : DeadlinesFrom s.now s) : Raised (raisesOn s s.now) s (settle s) := by
  have timers := settleTimers_raised h
  obtain ⟨hready, hcomplete, -⟩ := settleTimers_others s
  have ready : Raised _ _ (serialReady (settleTimers s)) := serialReady_raised (by
    rw [hready, settleTimers_now]
    exact h.ready)
  rw [hready, settleTimers_now, timers.irqen] at ready
  have hnow : (serialReady (settleTimers s)).now = s.now := (serialReady_untimed _).now.trans (settleTimers_now s)
  have hcomplete : (serialReady (settleTimers s)).serComplete = s.serComplete :=
    (serialReady_others _).2.1.trans hcomplete
  have complete : Raised _ _ (serialComplete (serialReady (settleTimers s))) := serialComplete_raised (by
    rw [hcomplete, hnow]
    exact h.complete)
  rw [hcomplete, hnow, ready.irqen, timers.irqen] at complete
  obtain ⟨a, p, hpots⟩ := settlePots_frame potInputs (serialComplete (serialReady (settleTimers s)))
  have raised := (timers.trans ready).trans complete
  rw [settle_parts, hpots]
  exact ⟨raised.irqen, raised.irqst, raised.calls⟩

/-! ### A scheduler step raises the sources of the tick it reaches -/

theorem audioTick_advance_now (e : Nat) (s : State) : (audioTick (advance e s)).now = s.now + e := by
  obtain ⟨hnow, -⟩ := audioTick_others (advance e s)
  exact hnow

/-- `Advance` and the audio part of a tick touch no interrupt source. -/
theorem audioTick_advance_sources (e : Nat) (s : State) : SameSources s (audioTick (advance e s)) := by
  obtain ⟨n1, n2, n3, n4, o1, o2, o3, o4, h⟩ := channelEvents_frame (advance e s) (advance e s)
  unfold audioTick
  rw [h]
  split <;> exact ⟨rfl, fun k => by cases k <;> rfl, rfl, rfl⟩

/-- `Advance` and the audio part of a tick raise nothing. -/
theorem audioTick_advance_raised (e : Nat) (s : State) : Raised [] s (audioTick (advance e s)) := by
  obtain ⟨n1, n2, n3, n4, o1, o2, o3, o4, h⟩ := channelEvents_frame (advance e s) (advance e s)
  unfold audioTick
  rw [h]
  split <;> exact ⟨rfl, rfl, rfl⟩

/-- The deadlines of a state lie at least where all of `deadlines` do. -/
theorem DeadlinesFrom.of_deadlines {n : Nat} {s : State} (h : ∀ d ∈ deadlines s, n ≤ d) : DeadlinesFrom n s where
  timer _ d hd := h d (timer_mem_deadlines hd)
  ready d hd := h d (by simp [deadlines, hd])
  complete d hd := h d (by simp [deadlines, hd])

/-- A step passes no deadline. -/
theorem deadlinesFrom_minSelect {s : State} (h : s.Settled) : DeadlinesFrom (s.now + minSelect s) s :=
  .of_deadlines fun _ hd => now_add_minSelect_le h hd

theorem schedStep_raised {s : State} (h : s.Settled) : Raised (raisesOn s (s.now + minSelect s)) s (schedStep s) := by
  have sources := audioTick_advance_sources (minSelect s) s
  have tick := settle_raised (s := audioTick (advance (minSelect s) s)) (by
    rw [audioTick_advance_now]
    exact sources.deadlinesFrom (deadlinesFrom_minSelect h))
  rw [audioTick_advance_now, sources.raisesOn] at tick
  simpa [schedStep_eq_settle] using (audioTick_advance_raised (minSelect s) s).trans tick

/-- The expiries after a tick are the same before and after the timer moved on that tick. -/
theorem expiresAt_movedIfDue {k : Timer} {now n : Nat} (hfrom : ∀ d, k.deadline = some d → now ≤ d) (hn : now < n) :
    Reference.expiresAt (k.movedIfDue now) n = Reference.expiresAt k n := by
  by_cases hdue : ∃ d p, k.deadline = some d ∧ k.period = some p ∧ d ≤ now
  · obtain ⟨d, p, hd, hp, hle⟩ := hdue
    have := hfrom d hd
    rw [Timer.movedIfDue_of_due hd hp hle]
    simp only [Reference.expiresAt, hd, hp]
    by_cases hnext : d + p ≤ n
    · have split : n - d = n - (d + p) + p := by omega
      rw [split, Nat.add_mod_right, decide_eq_true hnext, decide_eq_true (by omega)]
    · have inside : (n - d) % p = n - d := Nat.mod_eq_of_lt (by omega)
      rw [inside, decide_eq_false hnext, Bool.false_and]
      have : n - d ≠ 0 := by omega
      simp [this]
  · rw [Timer.movedIfDue_of_not_due fun d p hd hp => Nat.lt_of_not_le fun hle => hdue ⟨d, p, hd, hp, hle⟩]

/-- Clearing a serial deadline that is due leaves what is set for a later tick. -/
theorem cleared_beq {now n : Nat} (o : Option Nat) (hn : now < n) :
    ((if due now o then none else o) == some n) = (o == some n) := by
  split
  · next hdue =>
    cases o with
    | none => rfl
    | some d =>
      have past : d ≤ now := of_decide_eq_true hdue
      have earlier : d ≠ n := by omega
      simp [earlier]
  · rfl

/-- What later ticks raise is not changed by a step. -/
theorem raisesOn_schedStep {s : State} {n : Nat} (h : s.Settled) (hn : s.now + minSelect s < n) :
    raisesOn (schedStep s) n = raisesOn s n := by
  have sources := audioTick_advance_sources (minSelect s) s
  have ready : ((schedStep s).serReady == some n) = (s.serReady == some n) := by
    rw [schedStep_eq_settle, settle_serReady, audioTick_advance_now, cleared_beq _ hn, sources.ready]
  have complete : ((schedStep s).serComplete == some n) = (s.serComplete == some n) := by
    rw [schedStep_eq_settle, settle_serComplete, audioTick_advance_now, cleared_beq _ hn, sources.complete]
  have timer (k : TimerId) : Reference.expiresAt ((schedStep s).timer k) n = Reference.expiresAt (s.timer k) n := by
    rw [schedStep_timer, expiresAt_movedIfDue ((deadlinesFrom_minSelect h).timer k) hn]
  exact raisesOn_congr (schedStep_settings s).irqen timer ready complete

end Sys2Proof.Machine
end

section
/-!
PROOFS. A transmission over any `RENDER`s (`44_serial.md` R178): the sources raised up to a tick, the calls of the sink that
they make, and those of a transmission among them.
-/

namespace Sys2Proof.Machine

/-! ### All sources up to a tick -/

/-- The values of `f` at all ticks up to `n`, newest first. -/
def throughTick {α : Type} (f : Nat → List α) : Nat → List α
  | 0 => f 0
  | n + 1 => f (n + 1) ++ throughTick f n

theorem throughTick_eq_nil {α : Type} {f : Nat → List α} {n : Nat} (h : ∀ m ≤ n, f m = []) : throughTick f n = [] := by
  induction n with
  | zero => exact h 0 le_rfl
  | succ n ih => rw [throughTick, h (n + 1) le_rfl, ih fun m hm => h m (Nat.le_succ_of_le hm), List.append_nil]

/-- Over ticks without a value only the last one counts. -/
theorem throughTick_add {α : Type} {f : Nat → List α} {a e : Nat} (he : 0 < e)
    (quiet : ∀ m, a < m → m < a + e → f m = []) : throughTick f (a + e) = f (a + e) ++ throughTick f a := by
  induction e with
  | zero => exact absurd he (Nat.lt_irrefl 0)
  | succ e ih =>
    rw [← Nat.add_assoc, throughTick]
    obtain rfl | hpos := Nat.eq_zero_or_pos e
    · rfl
    · rw [ih hpos fun m ham hme => quiet m ham (by omega), quiet (a + e) (by omega) (by omega), List.nil_append]

theorem mem_throughTick {α : Type} {f : Nat → List α} {n : Nat} {x : α} :
    x ∈ throughTick f n ↔ ∃ m ≤ n, x ∈ f m := by
  induction n with
  | zero => simp [throughTick]
  | succ n ih => simp [throughTick, ih, Nat.le_succ_iff, or_and_right, exists_or, or_comm]

theorem mem_raisesOn {s : State} {n : Nat} {c : Nat × Fin 8} (h : c ∈ raisesOn s n) :
    c.1 = n ∧ s.irqen.getLsbD c.2 = true := by
  simp only [raisesOn, List.mem_append, mem_raiseIf] at h
  obtain ⟨rfl, hen, -⟩ | ⟨rfl, hen, -⟩ | ⟨rfl, hen, -⟩ | ⟨rfl, hen, -⟩ | ⟨rfl, hen, -⟩ := h <;> exact ⟨rfl, hen⟩

/-- Of all sources up to tick `m` those of tick `n` are the ones it raises. -/
theorem filter_throughTick_raisesOn (s : State) (n m : Nat) :
    (throughTick (raisesOn s) m).filter (fun c => c.1 == n) = if n ≤ m then raisesOn s n else [] := by
  have tick (k : Nat) : (raisesOn s k).filter (fun c => c.1 == n) = if k = n then raisesOn s n else [] := by
    split
    · next hk => rw [← hk, List.filter_eq_self.2 fun c hc => beq_iff_eq.2 (mem_raisesOn hc).1]
    · next hk =>
      refine List.filter_eq_nil_iff.2 fun c hc hn => hk ?_
      rw [← (mem_raisesOn hc).1, beq_iff_eq.1 hn]
  induction m with
  | zero => simp only [throughTick, tick, Nat.le_zero, eq_comm]
  | succ m ih =>
    rw [throughTick, List.filter_append, tick, ih]
    split
    · next hm => rw [if_neg (by omega), if_pos hm.ge, List.append_nil]
    · next hm => simp [Nat.le_succ_iff, Ne.symm hm]

/-! ### The calls of a run -/

theorem length_filter_callsOf (enables q : Byte) (l : List (Nat × Fin 8)) (n : Nat) :
    ((callsOf enables q l).filter fun c => c.1 == n).length = (l.filter fun c => c.1 == n).length := by
  induction l with
  | nil => rfl
  | cons c l ih =>
    rw [callsOf, List.filter_cons, List.filter_cons]
    split <;> simp [ih]

theorem exists_of_mem_callsOf {enables q : Byte} {l : List (Nat × Fin 8)} {c : Nat × Byte} (h : c ∈ callsOf enables q l) :
    ∃ r ∈ l, r.1 = c.1 := by
  induction l with
  | nil => cases h
  | cons r l ih =>
    obtain rfl | h := List.mem_cons.1 h
    · exact ⟨r, List.mem_cons_self, rfl⟩
    · obtain ⟨r, hr, e⟩ := ih h
      exact ⟨r, List.mem_cons_of_mem _ hr, e⟩

theorem getLsbD_pendingAfter (q : Byte) (l : List (Nat × Fin 8)) (i : Fin 8) :
    (pendingAfter q l).getLsbD i = (q.getLsbD i || l.any fun c => c.2 == i) := by
  induction l with
  | nil => simp [pendingAfter]
  | cons c l ih =>
    rw [pendingAfter, BitVec.getLsbD_or, ih, getLsbD_sourceBit, List.any_cons, ← beq_eq_decide, Bool.or_assoc,
      Bool.or_comm (l.any _)]

/-- Where bit `i` was not pending, the first call that shows it is the call of source `i`. -/
theorem find?_callsOf {enables q : Byte} {l : List (Nat × Fin 8)} {i : Fin 8} (hq : q.getLsbD i = false)
    (hl : ∀ c ∈ l, enables.getLsbD c.2 = true) :
    ((callsOf enables q l).reverse.find? fun c => c.2.getLsbD i).map Prod.fst =
      (l.reverse.find? fun c => c.2 == i).map Prod.fst := by
  induction l with
  | nil => rfl
  | cons c l ih =>
    rw [callsOf, List.reverse_cons, List.reverse_cons, List.find?_append, List.find?_append, Option.map_or, Option.map_or,
      ih fun c hc => hl c (List.mem_cons_of_mem _ hc)]
    cases before : l.reverse.find? fun c => c.2 == i with
    | some r => rfl
    | none =>
      have notYet : (l.any fun c => c.2 == i) = false := by simpa using before
      have shows : (pendingAfter q (c :: l) &&& enables).getLsbD i = (c.2 == i) := by
        rw [BitVec.getLsbD_and, getLsbD_pendingAfter, hq, List.any_cons, notYet, Bool.or_false, Bool.false_or]
        by_cases hc : c.2 = i
        · rw [← hc, hl c List.mem_cons_self, Bool.and_true]
        · rw [beq_false_of_ne hc, Bool.false_and]
      rw [List.find?_singleton, List.find?_singleton, shows]
      split <;> rfl

/-- The first source `i` of a list that has it on one tick only. -/
theorem find?_source {l : List (Nat × Fin 8)} {i : Fin 8} {happens : Bool} {n : Nat}
    (h : ∀ m, (m, i) ∈ l ↔ happens = true ∧ m = n) :
    (l.reverse.find? fun c => c.2 == i).map Prod.fst = if happens then some n else none := by
  cases found : l.reverse.find? fun c => c.2 == i with
  | some r =>
    have hi : r.2 = i := by simpa using List.find?_some found
    have hr : (r.1, i) ∈ l := by simpa [← hi] using List.mem_of_find?_eq_some found
    obtain ⟨hhappens, htick⟩ := (h r.1).1 hr
    rw [hhappens, if_pos rfl, Option.map_some, htick]
  | none =>
    have absent : happens = false := by
      refine Bool.eq_false_iff.2 fun hhappens => ?_
      simpa using List.find?_eq_none.1 found (n, i) (List.mem_reverse.2 ((h n).2 ⟨hhappens, rfl⟩))
    rw [absent]
    rfl

theorem and_eq_self_of_and_not_eq_zero {q enables : Byte} (h : q &&& ~~~enables = 0#8) : q &&& enables = q := by
  have parts : q &&& enables ||| q &&& ~~~enables = q := by
    rw [← BitVec.and_or_distrib_left, BitVec.or_not_self, BitVec.and_allOnes]
  rwa [h, BitVec.or_zero] at parts

theorem pendingAfter_raiseIf_true (enables q : Byte) (n : Nat) (i : Fin 8) :
    pendingAfter q (raiseIf enables n i true) = if enables.getLsbD i then q ||| sourceBit i else q := by
  rw [raiseIf, Bool.and_true]
  split <;> rfl

/-- An enabled source on top of enabled bits leaves only enabled bits. -/
theorem pendingAfter_raiseIf_enabled {enables q : Byte} (hq : q &&& enables = q) (n : Nat) (i : Fin 8) :
    pendingAfter q (raiseIf enables n i true) &&& enables = pendingAfter q (raiseIf enables n i true) := by
  rw [pendingAfter_raiseIf_true]
  split
  · next hi => rw [BitVec.and_or_distrib_right, hq, sourceBit_and, if_pos hi]
  · exact hq

/-- On top of enabled bits the sink is called with all that is pending (`43_timer_irq.md` R156). -/
theorem callsOf_raiseIf_true {enables q : Byte} (hq : q &&& enables = q) (n : Nat) (i : Fin 8) :
    callsOf enables q (raiseIf enables n i true) = if enables.getLsbD i then [(n, q ||| sourceBit i)] else [] := by
  have mask := pendingAfter_raiseIf_enabled hq n i
  rw [raiseIf, Bool.and_true] at mask ⊢
  split
  · next hi =>
    rw [if_pos hi] at mask
    rw [callsOf, mask]
    rfl
  · rfl

/-! ### Any `RENDER`s -/

theorem DeadlinesFrom.mono {n m : Nat} {s : State} (h : DeadlinesFrom m s) (hnm : n ≤ m) : DeadlinesFrom n s where
  timer k d hd := hnm.trans (h.timer k d hd)
  ready d hd := hnm.trans (h.ready d hd)
  complete d hd := hnm.trans (h.complete d hd)

theorem State.Settled.deadlinesFrom {s : State} (h : s.Settled) : DeadlinesFrom (s.now + 1) s := .of_deadlines h

/-- The scheduler has come from `u` to `v`: it raised what the ticks up to now raise by the deadlines of `u`, and the
ticks to come raise what they did. -/
structure Scheduled (u v : State) : Prop where
  schedulable : Schedulable v
  raised : Raised (throughTick (raisesOn u) v.now) u v
  ahead : ∀ n, v.now < n → raisesOn v n = raisesOn u n

theorem Scheduled.refl {u : State} (h : Schedulable u) : Scheduled u u where
  schedulable := h
  raised := by
    have nothing : throughTick (raisesOn u) u.now = [] :=
      throughTick_eq_nil fun m hm => raisesOn_eq_nil (h.settled.deadlinesFrom.mono (Nat.succ_le_succ hm))
    exact nothing ▸ .refl u
  ahead _ _ := rfl

/-- The tick that a step reaches is the next one with a source, or nothing happens on it. -/
theorem Scheduled.throughTick_schedStep {u v : State} (h : Scheduled u v) :
    throughTick (raisesOn u) (v.now + minSelect v) =
      raisesOn v (v.now + minSelect v) ++ throughTick (raisesOn u) v.now := by
  have settled := h.schedulable.settled
  obtain stay | move := Nat.eq_zero_or_pos (minSelect v)
  · rw [stay, Nat.add_zero, raisesOn_eq_nil settled.deadlinesFrom, List.nil_append]
  · rw [throughTick_add move fun m ham hme => ?_, h.ahead _ (Nat.lt_add_of_pos_right move)]
    rw [← h.ahead m ham, raisesOn_eq_nil ((deadlinesFrom_minSelect settled).mono hme)]

theorem Scheduled.after_schedStep {u v : State} (h : Scheduled u v) : Scheduled u (schedStep v) where
  schedulable := h.schedulable.after_schedStep
  raised := by
    rw [schedStep_now, h.throughTick_schedStep]
    exact h.raised.trans (schedStep_raised h.schedulable.settled)
  ahead n hn := by
    rw [schedStep_now] at hn
    rw [raisesOn_schedStep h.schedulable.settled hn, h.ahead n (by omega)]

/-- Any `RENDER`s are scheduler steps, however they are grouped (`44_serial.md` R178). -/
theorem Scheduled.after_renders {u v t : State} {l : List Nat} (h : Scheduled u v)
    (hx : execAll (l.map .render) v = .next t) : Scheduled u t := by
  induction l generalizing v with
  | nil => exact Host.Outcome.next.inj hx ▸ h
  | cons n l ih =>
    obtain ⟨w, hloop, hexec⟩ := h.schedulable.exec_render n
    rw [List.map_cons, execAll_cons_of_next hexec] at hx
    exact ih (renderLoop_keeps (P := Scheduled u) (fun _ => Scheduled.after_schedStep) _ _ v w h hloop) hx

/-- The sink calls of the new events. -/
theorem Raised.newCalls {l : List (Nat × Fin 8)} {s t : State} (h : Raised l s t) (htold : s.env.trace <:+ t.env.trace) :
    irqCallsIn (newEvents s t) = callsOf s.irqen s.irqst l := by
  obtain ⟨m, hm⟩ := htold
  have calls := h.calls
  rw [← hm, irqCallsIn, List.filterMap_append] at calls
  rw [newEvents_of_append hm.symm]
  exact List.append_cancel_right calls

theorem execAll_told {l : List Instr} {s t : State} (h : execAll l s = .next t) : s.env.trace <:+ t.env.trace := by
  induction l generalizing s with
  | nil => exact Host.Outcome.next.inj h ▸ List.suffix_rfl
  | cons i l ih =>
    rw [execAll] at h
    split at h
    · next u hu => exact (exec_told hu).trans (ih h)
    · cases h
    · cases h

/-! ### A transmission -/

/-- A transmission sets deadlines that lie ahead (`00_scope.md` R5). -/
theorem writeSerout_settled {s : State} (hs : s.Settled) (hcfg : s.cfg.Valid) (v : Byte) : (writeSerout v s).Settled := by
  obtain ⟨ht, -, -, hp⟩ := hs.ahead
  obtain ⟨-, -, -, hready, hcomplete, -⟩ := hcfg
  refine State.settled_of_ahead (fun k => ?_) (fun d hd => ?_) (fun d hd => ?_) hp
  · cases k with
    | t1 => exact ht .t1
    | t2 => exact ht .t2
    | t4 => exact ht .t4
  · exact Option.some.inj hd ▸ Nat.lt_add_of_pos_right hready
  · exact Option.some.inj hd ▸ Nat.lt_add_of_pos_right (hready.trans hcomplete.le)

theorem exec_wSerout_of_settled {s : State} (hs : s.Settled) (hcfg : s.cfg.Valid) (v : Byte) :
    exec (.wSerout v) s = .next (writeSerout v s) := by
  rw [exec, execWSerout, regWriteWith, settle_of_settled (writeSerout_settled hs hcfg v)]

theorem Schedulable.writeSerout {s : State} (h : Schedulable s) (hcfg : s.cfg.Valid) (v : Byte) :
    Schedulable (writeSerout v s) where
  periods k := by cases k with
    | t1 => exact h.periods .t1
    | t2 => exact h.periods .t2
    | t4 => exact h.periods .t4
  targets := h.targets
  divisors c := by cases c with
    | ch1 => exact h.divisors .ch1
    | ch2 => exact h.divisors .ch2
    | ch3 => exact h.divisors .ch3
    | ch4 => exact h.divisors .ch4
  sampleStep := h.sampleStep
  settled := writeSerout_settled h.settled hcfg v

/-- What a tick raises once a transmission has started. -/
theorem raisesOn_writeSerout (v : Byte) (s : State) (n : Nat) : raisesOn (writeSerout v s) n =
    raiseIf s.irqen n 3 (n == s.now + s.cfg.tSerComplete) ++ (raiseIf s.irqen n 4 (n == s.now + s.cfg.tSerReady) ++
      (raiseIf s.irqen n 2 (Reference.expiresAt s.t4 n) ++ (raiseIf s.irqen n 1 (Reference.expiresAt s.t2 n) ++
        raiseIf s.irqen n 0 (Reference.expiresAt s.t1 n)))) := by
  rw [Bool.beq_comm (a := n), Bool.beq_comm (a := n)]
  rfl

/-- A source that happens on one tick only can be written with that tick. -/
theorem raiseIf_beq (enables : Byte) (n m : Nat) (i : Fin 8) :
    raiseIf enables n i (n == m) = raiseIf enables m i (decide (n = m)) := by
  by_cases h : n = m
  · simp [h]
  · rw [beq_false_of_ne h, decide_eq_false h, raiseIf_false, raiseIf_false]

/-- Two sources, each on a tick of its own, newest first. -/
theorem throughTick_two_sources {enables : Byte} {i j : Fin 8} {a b : Nat} (ha : 0 < a) (hab : a < b) (n : Nat) :
    throughTick (fun n => raiseIf enables n j (n == b) ++ raiseIf enables n i (n == a)) n =
      raiseIf enables b j (decide (b ≤ n)) ++ raiseIf enables a i (decide (a ≤ n)) := by
  simp only [raiseIf_beq]
  induction n with
  | zero => simp [throughTick, ha.ne, ha.ne', (ha.trans hab).ne, (ha.trans hab).ne']
  | succ n ih =>
    rw [throughTick, ih]
    obtain rfl | hb := eq_or_ne b (n + 1)
    · have earlier : a ≤ n := Nat.le_of_lt_succ hab
      simp [hab.ne', earlier, Nat.le_succ_of_le earlier]
    · obtain rfl | ha := eq_or_ne a (n + 1)
      · simp [hb.symm, hab.not_ge, (Nat.lt_of_succ_lt hab).not_ge]
      · simp [hb, hb.symm, ha, ha.symm, Nat.le_succ_iff]

/-- Without a timer the sources of a transmission are "ready" and "complete". -/
theorem throughTick_writeSerout {s : State} (htimers : ∀ k, (s.timer k).period = none) (hcfg : s.cfg.Valid) (v : Byte)
    {n : Nat} (hn : s.now + s.cfg.tSerComplete ≤ n) : throughTick (raisesOn (writeSerout v s)) n =
      raiseIf s.irqen (s.now + s.cfg.tSerComplete) 3 true ++ raiseIf s.irqen (s.now + s.cfg.tSerReady) 4 true := by
  obtain ⟨-, -, -, hready, hcomplete, -⟩ := hcfg
  have silent (k : TimerId) (n : Nat) : Reference.expiresAt (s.timer k) n = false := by
    rw [Reference.expiresAt, htimers k]
  have ticks : raisesOn (writeSerout v s) = fun n => raiseIf s.irqen n 3 (n == s.now + s.cfg.tSerComplete) ++
      raiseIf s.irqen n 4 (n == s.now + s.cfg.tSerReady) := by
    funext n
    rw [raisesOn_writeSerout, ← State.timer_t1, ← State.timer_t2, ← State.timer_t4, silent, silent, silent]
    simp only [raiseIf_false, List.append_nil]
  rw [ticks, throughTick_two_sources (by omega) (by omega), decide_eq_true hn, decide_eq_true (by omega)]

/-- The calls of "ready" and "complete" alone, newest first (`44_serial.md` R172, R173). -/
theorem callsOf_transmission {enables q : Byte} (hq : q &&& enables = q) (a b : Nat) :
    callsOf enables q (raiseIf enables b 3 true ++ raiseIf enables a 4 true) =
      (if enables.getLsbD 3 then [(b, (if enables.getLsbD 4 then q ||| 0x10#8 else q) ||| 0x08#8)] else []) ++
        (if enables.getLsbD 4 then [(a, if enables.getLsbD 4 then q ||| 0x10#8 else q)] else []) := by
  rw [callsOf_append, callsOf_raiseIf_true (pendingAfter_raiseIf_enabled hq a 4), callsOf_raiseIf_true hq,
    pendingAfter_raiseIf_true]
  congr 1
  change (if enables.getLsbD 4 then [(a, q ||| 0x10#8)] else []) = _
  cases enables.getLsbD 4 <;> rfl

/-- How many sources a tick raises once a transmission has started. -/
theorem length_raisesOn_writeSerout (v : Byte) (s : State) (n : Nat) : (raisesOn (writeSerout v s) n).length =
    (if s.irqen.getLsbD 0 && Reference.expiresAt s.t1 n then 1 else 0) +
    (if s.irqen.getLsbD 1 && Reference.expiresAt s.t2 n then 1 else 0) +
    (if s.irqen.getLsbD 2 && Reference.expiresAt s.t4 n then 1 else 0) +
    (if s.irqen.getLsbD 4 && n == s.now + s.cfg.tSerReady then 1 else 0) +
    (if s.irqen.getLsbD 3 && n == s.now + s.cfg.tSerComplete then 1 else 0) := by
  have newestLast (a b c d e : Nat) : a + (b + (c + (d + e))) = e + d + c + b + a := by omega
  simp only [raisesOn_writeSerout, List.length_append, length_raiseIf]
  exact newestLast _ _ _ _ _

theorem ready_mem_raisesOn_writeSerout (v : Byte) (s : State) (n : Nat) :
    (n, 4) ∈ raisesOn (writeSerout v s) n ↔ s.irqen.getLsbD 4 = true ∧ n = s.now + s.cfg.tSerReady := by
  simp [raisesOn_writeSerout, mem_raiseIf]

theorem complete_mem_raisesOn_writeSerout (v : Byte) (s : State) (n : Nat) :
    (n, 3) ∈ raisesOn (writeSerout v s) n ↔ s.irqen.getLsbD 3 = true ∧ n = s.now + s.cfg.tSerComplete := by
  simp [raisesOn_writeSerout, mem_raiseIf]

/-- Settles O49: the calls are those of the sources up to the last tick, each with all that is pending then; what a tick
raises gives their number, and the one tick of "ready" and of "complete" the calls that newly show these bits. -/
theorem transmissionRaisesReadyThenComplete : Obligations.TransmissionRaisesReadyThenComplete := by
  intro s u t v l hinv hu ht hdone
  obtain rfl := Host.Outcome.next.inj ((exec_wSerout_of_settled hinv.settled hinv.cfgValid v).symm.trans hu)
  obtain ⟨-, -, -, -, hbefore, -⟩ := hinv.cfgValid
  have run := (Scheduled.refl (hinv.schedulable.writeSerout hinv.cfgValid v)).after_renders ht
  have hcalls : irqCallsIn (newEvents (writeSerout v s) t) =
      callsOf s.irqen s.irqst (throughTick (raisesOn (writeSerout v s)) t.now) := run.raised.newCalls (execAll_told ht)
  have happened {c : Nat × Fin 8} : c ∈ throughTick (raisesOn (writeSerout v s)) t.now ↔
      c.1 ≤ t.now ∧ c ∈ raisesOn (writeSerout v s) c.1 := by
    rw [mem_throughTick]
    refine ⟨fun ⟨m, hm, hc⟩ => ?_, fun ⟨hm, hc⟩ => ⟨_, hm, hc⟩⟩
    rw [(mem_raisesOn hc).1]
    exact ⟨hm, hc⟩
  have enabled : ∀ c ∈ throughTick (raisesOn (writeSerout v s)) t.now, s.irqen.getLsbD c.2 = true :=
    fun c hc => (mem_raisesOn (happened.1 hc).2).2
  simp only
  rw [hcalls]
  refine ⟨fun n hn => ?_, fun c hc => ?_, fun hpending => ?_, fun hpending => ?_, fun htimers => ?_⟩
  · rw [length_filter_callsOf, filter_throughTick_raisesOn, if_pos hn, length_raisesOn_writeSerout]
  · obtain ⟨r, hr, e⟩ := exists_of_mem_callsOf hc
    exact e ▸ (happened.1 hr).1
  · refine (find?_callsOf (i := 4) hpending enabled).trans (find?_source fun m => ?_)
    rw [happened, ready_mem_raisesOn_writeSerout]
    exact ⟨And.right, fun h => ⟨by omega, h⟩⟩
  · refine (find?_callsOf (i := 3) hpending enabled).trans (find?_source fun m => ?_)
    rw [happened, complete_mem_raisesOn_writeSerout]
    exact ⟨And.right, fun h => ⟨by omega, h⟩⟩
  · rw [throughTick_writeSerout htimers hinv.cfgValid v hdone]
    exact callsOf_transmission (and_eq_self_of_and_not_eq_zero hinv.pendingEnabled) _ _

end Sys2Proof.Machine
end

section
/-!
PROOFS. The serial unit and the system status (`44_serial.md`): the optional host hooks, the status reads, the writes that only store
or clear bits, the transmission's write and its two due events, and the read of the serial input.
-/

namespace Sys2Proof.Machine

/-! ### The optional host hooks -/

/-- The three error bits stand above five clear bits (`10_state.md` R22). -/
theorem errors_append_zero (errors : BitVec 3) : errors ++ 0#5 = BitVec.ofNat 8 (errors.toNat * 32) := by
  have bound := errors.isLt
  apply BitVec.eq_of_toNat_eq
  rw [BitVec.toNat_append, BitVec.toNat_ofNat, BitVec.toNat_ofNat, Nat.zero_mod, Nat.or_zero, Nat.shiftLeft_eq]
  omega

/-- Settles O6: the step of each hook, with its bits in the place the rule gives them. -/
theorem hostHooksSetOnlyTheirBits : Obligations.HostHooksSetOnlyTheirBits := by
  refine ⟨fun s rest e hq => ?_, fun s rest b hq => ?_⟩
  · rw [step_of_setError hq, setError, errors_append_zero]
    rfl
  · rw [step_of_setKbcode hq]
    rfl

/-! ### The status and input reads -/

theorem returnByte_eq_told (b : Byte) (s : State) : returnByte b s = Reference.told s (.readReturned b) := rfl

/-- Settles O39. -/
theorem statusReadsReturnComplements : Obligations.StatusReadsReturnComplements := by
  refine fun s => ⟨?_, ?_⟩
  · rw [exec, execRIrqst, returnByte_eq_told]
  · rw [exec, execRSkstat, returnByte_eq_told]

theorem askSerial_of_answer {s : State} {b : Byte} {rest : List Byte} (h : s.env.serialAnswers = b :: rest) :
    askSerial s = (b, { s with env := { s.env with serialAnswers := rest } }) := by
  simp [askSerial, h]

/-- Settles O48. -/
theorem serinReadTakesOneProviderByte : Obligations.SerinReadTakesOneProviderByte := by
  intro s b rest h
  rw [exec, execRSerin, askSerial_of_answer h, returnByte_eq_told]

/-! ### The writes that set no deadline -/

theorem exec_wSkctl_of_settled {s : State} (h : s.Settled) (v : Byte) : exec (.wSkctl v) s = .next { s with skctl := v } := by
  have hset : ({ s with skctl := v } : State).Settled := h
  rw [exec, execWSkctl, regWriteWith, settle_of_settled hset]

theorem exec_wSkrest_of_settled {s : State} (h : s.Settled) (v : Byte) :
    exec (.wSkrest v) s = .next { s with skstat := s.skstat &&& ~~~skstatErrors } := by
  have hset : ({ s with skstat := s.skstat &&& ~~~skstatErrors } : State).Settled := h
  rw [exec, execWSkrest, regWriteWith, settle_of_settled hset]

/-- Settles O56. -/
theorem plainAndUnmappedWrites : Obligations.PlainAndUnmappedWrites :=
  fun _ v off hs => ⟨exec_wSkctl_of_settled hs v, exec_wSkrest_of_settled hs v, exec_wUnmapped_of_settled hs v,
    exec_wOutOfRange_of_settled hs off v⟩

/-! ### A transmission's write and its due events -/

/-- Settles O46: neither deadline of the write is due yet, so the closing `Settle` changes nothing. -/
theorem seroutWriteStartsTransmission : Obligations.SeroutWriteStartsTransmission := by
  intro s v hs hcfg
  rw [exec_wSerout_of_settled hs hcfg, writeSerout, emit_eq_told]
  rfl

/-- Settles O47. -/
theorem dueSerialEventsRaiseTheirInterrupts : Obligations.DueSerialEventsRaiseTheirInterrupts := by
  refine fun s d hd => ⟨fun h => ?_, fun h => ?_⟩
  · rw [exec, execEvSerReady, serialReady_of_due s d h hd, raiseIrq_eq_raised, irqSerReady]
  · rw [exec, execEvSerComplete, serialComplete_of_due s d h hd, raiseIrq_eq_raised, irqSerComplete, skstatBusy]

end Sys2Proof.Machine
end

section
/-!
PROOFS. The paddles after `W_POTGO` (`45_paddle.md` R193 to R195): the eight completions, the eight value reads, and the ALLPOT read.
-/

namespace Sys2Proof.Machine

/-! ### A due completion -/

/-- The completion events with their inputs. -/
def potEvents : List (Instr × Fin 8) :=
  [(.evPot0, 0), (.evPot1, 1), (.evPot2, 2), (.evPot3, 3), (.evPot4, 4), (.evPot5, 5), (.evPot6, 6), (.evPot7, 7)]

theorem exec_of_mem_potEvents {q : Instr × Fin 8} (hq : q ∈ potEvents) (s : State) :
    exec q.1 s = .next (potComplete q.2 s) := by
  fin_cases hq <;> rfl

theorem getLsbD_potBit (i : Fin 8) (n : Nat) : (potBit i).getLsbD n = decide (n = i.val) := by
  have single : (potBit i).getLsbD n = (decide (i.val < 8) && decide (i.val = n)) := BitVec.getLsbD_twoPow i.val n
  rw [single, decide_eq_true i.isLt, Bool.true_and, decide_eq_decide]
  exact eq_comm

/-- Clearing the bit of input `i` in a byte keeps the other bits. -/
theorem getLsbD_clear_potBit (b : Byte) (i : Fin 8) (n : Nat) :
    (b &&& ~~~potBit i).getLsbD n = (b.getLsbD n && decide (n ≠ i.val)) := by
  by_cases hn : n < 8
  · rw [BitVec.getLsbD_and, BitVec.getLsbD_not, getLsbD_potBit, decide_eq_true hn, Bool.true_and, decide_not]
  · rw [BitVec.getLsbD_of_ge _ n (Nat.not_lt.1 hn), BitVec.getLsbD_of_ge b n (Nat.not_lt.1 hn), Bool.false_and]

/-- Settles O52. -/
theorem duePotCompletionLatchesTheTarget : Obligations.DuePotCompletionLatchesTheTarget := by
  intro s q hq d t hd hle ht
  have completed := potComplete_of_due q.2 s d t hd ht hle
  refine ⟨potComplete q.2 s, exec_of_mem_potEvents hq s, ?_, fun n => ?_, ?_, fun j hj => ?_⟩ <;> rw [completed]
  · rfl
  · exact getLsbD_clear_potBit s.allpot q.2 n
  · exact State.setPot_pot s q.2 _
  · exact State.setPot_pot_ne s _ hj

/-! ### The value reads -/

/-- The value reads with their inputs. -/
def potReads : List (Instr × Fin 8) :=
  [(.rPot0, 0), (.rPot1, 1), (.rPot2, 2), (.rPot3, 3), (.rPot4, 4), (.rPot5, 5), (.rPot6, 6), (.rPot7, 7)]

theorem exec_of_mem_potReads {q : Instr × Fin 8} (hq : q ∈ potReads) (s : State) :
    exec q.1 s = .next (returnByte (potRead s q.2) s) := by
  fin_cases hq <;> rfl

/-- Settles O53: an unconnected input and a connected one differ in the cap only. -/
theorem potReadsReturnTheEstimateOrTheLatch : Obligations.PotReadsReturnTheEstimateOrTheLatch := by
  intro s q hq cap b
  have hcap : (s.pot q.2).target.getD potMax = cap := by
    cases h : (s.pot q.2).target with
    | none => simp [cap, h, potMax]
    | some t => simp [cap, h]
  rw [exec_of_mem_potReads hq, returnByte_eq_told, potRead, hcap]
  rfl

/-! ### The ALLPOT read -/

theorem askAllpot_of_answer {s : State} {o : Option Byte} {rest : List (Option Byte)} (h : s.env.allpotAnswers = o :: rest) :
    askAllpot s = (o, { s with env := { s.env with allpotAnswers := rest } }) := by
  simp [askAllpot, h]

/-- Settles O55: the override present, and absent. -/
theorem allpotReadAsksTheOverride : Obligations.AllpotReadAsksTheOverride := by
  intro s o rest h
  rw [exec, execRAllpot, askAllpot_of_answer h, returnByte_eq_told]
  cases o <;> rfl

end Sys2Proof.Machine
end

section
/-!
PROOFS. The reads that only tell the host a byte: KBCODE, and the offsets without a register (`46_register_interface.md` R212, R214, R216).
-/

namespace Sys2Proof.Machine

/-- Settles O57, operation by operation: each is the return of its byte. -/
theorem kbcodeAndUnmappedReads : Obligations.KbcodeAndUnmappedReads := by
  refine fun s off => ⟨?kbcode, ?unmappedB, ?unmappedC, ?outOfRange⟩
  case kbcode => rw [exec, execRKbcode, returnByte_eq_told]
  case unmappedB => rw [exec, execRUnmappedB, returnByte_eq_told]
  case unmappedC => rw [exec, execRUnmappedC, returnByte_eq_told]
  case outOfRange => rw [exec, execROutOfRange, returnByte_eq_told]

end Sys2Proof.Machine
end

section
/-!
PROOFS. Every operation completes (`60_exceptions.md` R230): no state stops a bus access or an event; `RENDER`, `BUILD` and `RESET` each
need one thing that the invariant or the operand's well-formedness gives.
-/

namespace Sys2Proof.Machine

/-! ### Totality by the kind of the operation -/

theorem exec_isBusWrite_completes {i : Instr} (hi : isBusWrite i = true) (s : State) : ∃ t, exec i s = .next t := by
  obtain ⟨u, hu, -⟩ := exec_of_isBusWrite hi s
  exact ⟨settle u, hu⟩

theorem exec_isBusRead_completes {i : Instr} (hi : isBusRead i = true) (s : State) : ∃ t, exec i s = .next t := by
  obtain ⟨b, u, hu, -⟩ := exec_of_isBusRead hi s
  exact ⟨returnByte b u, hu⟩

/-- The operations of the events (`30_encoding.md` R62). -/
def isEvent : Instr → Bool
  | .evCh1 | .evCh2 | .evCh3 | .evCh4 | .evSample | .evT1 | .evT2 | .evT4 | .evSerReady | .evSerComplete | .evPot0 | .evPot1
  | .evPot2 | .evPot3 | .evPot4 | .evPot5 | .evPot6 | .evPot7 => true
  | _ => false

/-- An event completes in every state: one that is not due is no fault. -/
theorem exec_isEvent_completes {i : Instr} (hi : isEvent i = true) (s : State) : ∃ t, exec i s = .next t := by
  cases i with
  | evCh1 | evCh2 | evCh3 | evCh4 => exact ⟨channelEvent _ s, rfl⟩
  | evSample => exact ⟨sampleEvent s, rfl⟩
  | evT1 | evT2 | evT4 => exact ⟨timerExpiry _ s, rfl⟩
  | evSerReady => exact ⟨serialReady s, rfl⟩
  | evSerComplete => exact ⟨serialComplete s, rfl⟩
  | evPot0 | evPot1 | evPot2 | evPot3 | evPot4 | evPot5 | evPot6 | evPot7 => exact ⟨potComplete _ s, rfl⟩
  | _ => cases hi

/-- Every length that has a table has its row in the parameter table (`40_polynomial.md` R81). -/
theorem polyParam_isSome_of_length : ∀ n ∈ [4, 5, 9, 17], (polyParam n).isSome = true := by decide

/-- A `BUILD` of a length and slice that have a table returns it (`30_encoding.md` R63). -/
theorem exec_build_completes {n : Nat} {sl : Slice} (h : hasTable n sl = true) (s : State) :
    ∃ t, exec (.build n sl) s = .next t := by
  obtain ⟨hlength, -⟩ := (hasTable_iff n sl).1 h
  obtain ⟨p, hp⟩ := Option.isSome_iff_exists.1 (polyParam_isSome_of_length n hlength)
  exact ⟨_, exec_build_of_table hp h s⟩

/-! ### Totality of every operation -/

/-- Settles O13, by the kind of the operation: a bus access or an event completes in every state, the loop of `RENDER` ends where the
state is schedulable (`42_scheduler.md` R145), `BUILD` has its table by well-formedness, and the configuration of `RESET` is valid. -/
theorem everyWellFormedOperationCompletes : Obligations.EveryWellFormedOperationCompletes := by
  intro i s hinv hwf
  cases i with
  | wAudf1 v | wAudc1 v | wAudf2 v | wAudc2 v | wAudf3 v | wAudc3 v | wAudf4 v | wAudc4 v | wAudctl v | wStimer v
  | wSkrest v | wPotgo v | wUnmapped v | wSerout v | wIrqen v | wSkctl v | wOutOfRange off v => exact exec_isBusWrite_completes rfl s
  | rPot0 | rPot1 | rPot2 | rPot3 | rPot4 | rPot5 | rPot6 | rPot7 | rAllpot | rKbcode | rRandom | rUnmappedB | rUnmappedC
  | rSerin | rIrqst | rSkstat | rOutOfRange off => exact exec_isBusRead_completes rfl s
  | evCh1 | evCh2 | evCh3 | evCh4 | evSample | evT1 | evT2 | evT4 | evSerReady | evSerComplete | evPot0 | evPot1 | evPot2
  | evPot3 | evPot4 | evPot5 | evPot6 | evPot7 => exact exec_isEvent_completes rfl s
  | render n =>
    obtain ⟨t, -, ht⟩ := hinv.schedulable.exec_render n
    exact ⟨t, ht⟩
  | build n slice => exact exec_build_completes hwf s
  | reset => exact ⟨_, execReset_of_valid hinv.cfgValid⟩

end Sys2Proof.Machine
end

section
/-!
PROOFS. The interrupt and status registers over every operation (`43_timer_irq.md` R156, `44_serial.md` R175, `60_exceptions.md`
R232): which operations can touch them at all, and that those only add enabled sources and move the transmitting bit.
-/

namespace Sys2Proof.Machine

/-! ### The part of the state that most operations leave -/

/-- The state with the channels, AUDCTL, SKCTL, KBCODE, SEROUT, SERIN, the RANDOM indices and the host's side blanked: what is left
are the time, the interrupt and status registers, the deadlines, the paddles and the sample position. -/
def controlPart (s : State) : State :=
  { s with
    ch1 := Channel.reset s.cfg, ch2 := Channel.reset s.cfg, ch3 := Channel.reset s.cfg, ch4 := Channel.reset s.cfg
    kbcode := 0x00#8, audctl := 0x00#8, skctl := 0x00#8, serout := 0x00#8, serin := 0x00#8
    r9 := 0, r17 := 0, randLast := 0, env := HostSide.idle }

@[simp] theorem controlPart_setCh (s : State) (c : Ch) (k : Channel) : controlPart (s.setCh c k) = controlPart s := by
  cases c <;> rfl

@[simp] theorem controlPart_configure (c : Ch) (s : State) : controlPart (configure c s) = controlPart s := by
  rw [configure_eq, controlPart_setCh]

@[simp] theorem controlPart_setAudf (c : Ch) (v : Byte) (s : State) : controlPart (setAudf c v s) = controlPart s :=
  controlPart_setCh s c _

@[simp] theorem controlPart_setAudc (c : Ch) (v : Byte) (s : State) : controlPart (setAudc c v s) = controlPart s :=
  controlPart_setCh s c _

theorem controlPart_writeJoinedAudf {c d : Ch} (hne : d ≠ c) (joined : Byte → Bool) (v : Byte) (s : State) :
    controlPart (writeJoinedAudf c d joined v s) = controlPart s := by
  rw [writeJoinedAudf_eq hne, controlPart_setCh, controlPart_setCh]

theorem controlPart_foldl_configure (s : State) :
    controlPart (channelOrder.foldl (fun s c => configure c s) s) = controlPart s := by
  rw [foldl_configure_channelOrder]
  rfl

theorem controlPart_channelEvent (c : Ch) (s : State) : controlPart (channelEvent c s) = controlPart s := by
  obtain ⟨n1, n2, n3, n4, o1, o2, o3, o4, h⟩ := channelEvent_frame c s
  rw [h]
  rfl

/-- The bus writes of the channel registers and of SKCTL, and those that select no register. -/
def isPlainWrite : Instr → Bool
  | .wAudf1 _ | .wAudc1 _ | .wAudf2 _ | .wAudc2 _ | .wAudf3 _ | .wAudc3 _ | .wAudf4 _ | .wAudc4 _ | .wAudctl _ | .wUnmapped _
  | .wSkctl _ | .wOutOfRange _ _ => true
  | _ => false

/-- Such a write leaves the control part, up to its closing `Settle`. -/
theorem exec_isPlainWrite_next {i : Instr} (hi : isPlainWrite i = true) {s t : State} (h : exec i s = .next t) :
    ∃ u, t = settle u ∧ controlPart u = controlPart s := by
  have result {op : State → State} (keep : controlPart (op s) = controlPart s)
      (h : Host.Outcome.next (φ := Fault) (ρ := Refusal) (regWriteWith op s) = .next t) :
      ∃ u, t = settle u ∧ controlPart u = controlPart s := ⟨op s, (Host.Outcome.next.inj h).symm, keep⟩
  cases i with
  | wAudf1 v => exact result (controlPart_writeJoinedAudf (by decide) audctlJoin12 v s) h
  | wAudf3 v => exact result (controlPart_writeJoinedAudf (by decide) audctlJoin34 v s) h
  | wAudf2 v | wAudf4 v | wAudc1 v | wAudc2 v | wAudc3 v | wAudc4 v => exact result (by simp) h
  | wAudctl v => exact result (controlPart_foldl_configure { s with audctl := v }) h
  | wUnmapped v | wSkctl v | wOutOfRange off v => exact result rfl h
  | _ => cases hi

/-- All that a bus read can change: the RANDOM indices, SERIN and the host's side. -/
theorem exec_isBusRead_frame {i : Instr} (hi : isBusRead i = true) {s t : State} (h : exec i s = .next t) :
    ∃ m n l b e, t = { s with r9 := m, r17 := n, randLast := l, serin := b, env := e } := by
  cases i with
  | rPot0 | rPot1 | rPot2 | rPot3 | rPot4 | rPot5 | rPot6 | rPot7 | rKbcode | rUnmappedB | rUnmappedC | rIrqst | rSkstat
  | rOutOfRange off => exact ⟨s.r9, s.r17, s.randLast, s.serin, _, (Host.Outcome.next.inj h).symm⟩
  | rAllpot =>
    rw [exec, execRAllpot, askAllpot] at h
    split at h <;> exact ⟨s.r9, s.r17, s.randLast, s.serin, _, (Host.Outcome.next.inj h).symm⟩
  | rRandom =>
    rw [exec_rRandom, randomAdvance_eq] at h
    exact ⟨_, _, _, s.serin, _, (Host.Outcome.next.inj h).symm⟩
  | rSerin =>
    rw [exec, execRSerin, askSerial] at h
    split at h <;> exact ⟨s.r9, s.r17, s.randLast, _, _, (Host.Outcome.next.inj h).symm⟩
  | _ => cases hi

/-- A `BUILD` that completes tells the host its table and changes nothing else. -/
theorem exec_build_frame {n : Nat} {slice : Slice} {s t : State} (h : exec (.build n slice) s = .next t) :
    ∃ e, t = { s with env := e } := by
  rw [exec, execBuild] at h
  split at h
  · exact ⟨_, (Host.Outcome.next.inj h).symm⟩
  · cases h

/-! ### Only enabled sources become pending, only the transmitting bit moves -/

/-- From `s` to `t` only enabled sources among bits 4:0 became pending, none was cleared, and of SKSTAT only the transmitting bit
can differ. -/
structure Signalled (s t : State) : Prop where
  irqen : t.irqen = s.irqen
  irqst : ∃ b, t.irqst = s.irqst ||| b &&& (s.irqen &&& 0x1F#8)
  skstat : t.skstat &&& ~~~skstatBusy = s.skstat &&& ~~~skstatBusy

/-- Registers that stay the same are signalled nothing. -/
theorem Signalled.of_eq {s t : State} (hen : t.irqen = s.irqen) (hst : t.irqst = s.irqst)
    (hsk : t.skstat &&& ~~~skstatBusy = s.skstat &&& ~~~skstatBusy) : Signalled s t :=
  ⟨hen, ⟨0#8, by rw [hst, BitVec.zero_and, BitVec.or_zero]⟩, hsk⟩

theorem Signalled.refl (s : State) : Signalled s s := of_eq rfl rfl rfl

theorem Signalled.of_controlPart_eq {s t : State} (h : controlPart t = controlPart s) : Signalled s t :=
  of_eq (congrArg State.irqen h :) (congrArg State.irqst h :) (congrArg (fun u => u.skstat &&& ~~~skstatBusy) h :)

theorem Signalled.trans {s t u : State} (h : Signalled s t) (h' : Signalled t u) : Signalled s u where
  irqen := h'.irqen.trans h.irqen
  irqst := by
    obtain ⟨b, hb⟩ := h.irqst
    obtain ⟨b', hb'⟩ := h'.irqst
    exact ⟨b ||| b', by rw [hb', hb, h.irqen, BitVec.and_or_distrib_right, BitVec.or_assoc]⟩
  skstat := h'.skstat.trans h.skstat

/-- Raising sources among bits 4:0 (`43_timer_irq.md` R156). -/
theorem raiseIrq_signalled {bits : Byte} (hbits : bits &&& 0x1F#8 = bits) (s : State) : Signalled s (raiseIrq bits s) := by
  rw [raiseIrq_eq]
  split
  · exact .refl s
  · refine ⟨rfl, ⟨bits, ?_⟩, rfl⟩
    change s.irqst ||| bits &&& s.irqen = _
    rw [BitVec.and_comm s.irqen, ← BitVec.and_assoc, hbits]

theorem timerExpiry_signalled (k : TimerId) (s : State) : Signalled s (timerExpiry k s) := by
  have source : timerIrqBit k &&& 0x1F#8 = timerIrqBit k := by cases k <;> rfl
  have reschedule (t : Timer) : Signalled s (s.setTimer k t) := .of_eq (by simp) (by simp) (by simp)
  unfold timerExpiry
  split
  · split
    · exact (reschedule _).trans (raiseIrq_signalled source _)
    · exact .refl s
  · exact .refl s

theorem serialReady_signalled (s : State) : Signalled s (serialReady s) := by
  have clear : Signalled s { s with serReady := none } := .of_eq rfl rfl rfl
  unfold serialReady
  split
  · exact clear.trans (raiseIrq_signalled rfl _)
  · exact .refl s

theorem serialComplete_signalled (s : State) : Signalled s (serialComplete s) := by
  have clear : Signalled s { s with serComplete := none, skstat := s.skstat &&& ~~~skstatBusy } :=
    .of_eq rfl rfl (by rw [BitVec.and_assoc, BitVec.and_self])
  unfold serialComplete
  split
  · exact clear.trans (raiseIrq_signalled rfl _)
  · exact .refl s

theorem potComplete_signalled (i : Fin 8) (s : State) : Signalled s (potComplete i s) := by
  obtain ⟨a, p, h⟩ := potComplete_frame i s
  rw [h]
  exact .of_eq rfl rfl rfl

theorem settle_signalled (s : State) : Signalled s (settle s) := by
  obtain ⟨a, p, hpots⟩ := settlePots_frame potInputs (serialComplete (serialReady (settleTimers s)))
  have timers : Signalled s (settleTimers s) :=
    ((timerExpiry_signalled .t1 s).trans (timerExpiry_signalled .t2 _)).trans (timerExpiry_signalled .t4 _)
  have serial := (timers.trans (serialReady_signalled _)).trans (serialComplete_signalled _)
  rw [settle_parts, hpots]
  exact serial.trans (.of_eq rfl rfl rfl)

theorem audioTick_signalled (s : State) : Signalled s (audioTick s) := by
  obtain ⟨n1, n2, n3, n4, o1, o2, o3, o4, h⟩ := channelEvents_frame s s
  unfold audioTick
  rw [h]
  split <;> exact .of_eq rfl rfl rfl

theorem schedStep_signalled (s : State) : Signalled s (schedStep s) := by
  have moved : Signalled s (advance (minSelect s) s) := .of_eq rfl rfl rfl
  rw [schedStep_eq_settle]
  exact (moved.trans (audioTick_signalled _)).trans (settle_signalled _)

theorem exec_render_signalled {n : Nat} {s t : State} (h : exec (.render n) s = .next t) : Signalled s t := by
  obtain ⟨u, hu, ht⟩ := exec_render_next h
  have loop := renderLoop_keeps (P := Signalled s) (fun v hv => hv.trans (schedStep_signalled v)) _ _ s u (.refl s) hu
  exact ht ▸ loop.trans (settle_signalled u)

theorem writeSerout_signalled (v : Byte) (s : State) : Signalled s (writeSerout v s) := by
  have busy : (s.skstat ||| skstatBusy) &&& ~~~skstatBusy = s.skstat &&& ~~~skstatBusy := by
    simp [BitVec.and_or_distrib_right]
  exact .of_eq rfl rfl busy

theorem potgo_signalled (s : State) : Signalled s (potgo s) := by
  obtain ⟨p, hp⟩ := potgo_eq s
  rw [hp]
  exact .of_eq rfl rfl rfl

/-- Every operation but the writes IRQEN and SKREST and `RESET` only signals (`10_state.md` R22 to R24). -/
theorem exec_signalled {i : Instr} {s t : State} (hirqen : ∀ v, i ≠ .wIrqen v) (hskrest : ∀ v, i ≠ .wSkrest v)
    (hreset : i ≠ .reset) (h : exec i s = .next t) : Signalled s t := by
  have settled {u : State} (hu : Signalled s u) (h : Host.Outcome.next (φ := Fault) (ρ := Refusal) (settle u) = .next t) :
      Signalled s t := Host.Outcome.next.inj h ▸ hu.trans (settle_signalled u)
  cases i with
  | wAudf1 v | wAudc1 v | wAudf2 v | wAudc2 v | wAudf3 v | wAudc3 v | wAudf4 v | wAudc4 v | wAudctl v | wUnmapped v | wSkctl v
  | wOutOfRange off v =>
    obtain ⟨u, ht, same⟩ := exec_isPlainWrite_next rfl h
    exact ht ▸ (Signalled.of_controlPart_eq same).trans (settle_signalled u)
  | wStimer v => exact settled (u := rearmAll s) (.of_eq rfl rfl rfl) h
  | wPotgo v => exact settled (potgo_signalled s) h
  | wSerout v => exact settled (writeSerout_signalled v s) h
  | wIrqen v => exact absurd rfl (hirqen v)
  | wSkrest v => exact absurd rfl (hskrest v)
  | rPot0 | rPot1 | rPot2 | rPot3 | rPot4 | rPot5 | rPot6 | rPot7 | rAllpot | rKbcode | rRandom | rUnmappedB | rUnmappedC
  | rSerin | rIrqst | rSkstat | rOutOfRange off =>
    obtain ⟨m, n, l, b, e, rfl⟩ := exec_isBusRead_frame rfl h
    exact .of_eq rfl rfl rfl
  | evCh1 | evCh2 | evCh3 | evCh4 => exact Host.Outcome.next.inj h ▸ .of_controlPart_eq (controlPart_channelEvent _ s)
  | evSample => exact Host.Outcome.next.inj h ▸ .of_eq rfl rfl rfl
  | evT1 | evT2 | evT4 => exact Host.Outcome.next.inj h ▸ timerExpiry_signalled _ s
  | evSerReady => exact Host.Outcome.next.inj h ▸ serialReady_signalled s
  | evSerComplete => exact Host.Outcome.next.inj h ▸ serialComplete_signalled s
  | evPot0 | evPot1 | evPot2 | evPot3 | evPot4 | evPot5 | evPot6 | evPot7 =>
    exact Host.Outcome.next.inj h ▸ potComplete_signalled _ s
  | render n => exact exec_render_signalled h
  | build n slice =>
    obtain ⟨e, rfl⟩ := exec_build_frame h
    exact .of_eq rfl rfl rfl
  | reset => exact absurd rfl hreset

/-- The IRQEN write touches SKSTAT only by its closing `Settle` (`43_timer_irq.md` R153). -/
theorem exec_wIrqen_signalled {v : Byte} {s t : State} (h : exec (.wIrqen v) s = .next t) :
    Signalled (acknowledgeEnable v s) t := Host.Outcome.next.inj h ▸ settle_signalled _

/-- The state in which the closing `Settle` of SKREST begins (`44_serial.md` R175). -/
def errorsCleared (s : State) : State := { s with skstat := s.skstat &&& ~~~skstatErrors }

theorem exec_wSkrest_signalled {v : Byte} {s t : State} (h : exec (.wSkrest v) s = .next t) : Signalled (errorsCleared s) t :=
  Host.Outcome.next.inj h ▸ settle_signalled _

/-! ### The statements on IRQST -/

/-- What is signalled to IRQST: no bit is cleared, and the new ones are enabled and among bits 4:0. -/
theorem Signalled.pending {s t : State} (h : Signalled s t) :
    s.irqst &&& ~~~t.irqst = 0#8 ∧ t.irqst &&& ~~~s.irqst &&& ~~~(s.irqen &&& 0x1F#8) = 0#8 := by
  obtain ⟨b, hb⟩ := h.irqst
  rw [hb]
  constructor
  · ext n hn
    grind
  · ext n hn
    grind

/-- A pending bit that is enabled stays so while sources are signalled. -/
theorem Signalled.pendingEnabled {s t : State} (h : Signalled s t) (hs : s.irqst &&& ~~~s.irqen = 0#8) :
    t.irqst &&& ~~~t.irqen = 0#8 := by
  obtain ⟨b, hb⟩ := h.irqst
  rw [hb, h.irqen, BitVec.and_or_distrib_right, hs]
  ext n hn
  grind

/-- Every operation but the IRQEN write and `RESET` keeps IRQEN and only signals to IRQST. -/
theorem exec_pending {i : Instr} {s t : State} (hirqen : ∀ v, i ≠ .wIrqen v) (hreset : i ≠ .reset) (h : exec i s = .next t) :
    t.irqen = s.irqen ∧ s.irqst &&& ~~~t.irqst = 0#8 ∧ t.irqst &&& ~~~s.irqst &&& ~~~(s.irqen &&& 0x1F#8) = 0#8 := by
  by_cases hskrest : ∃ v, i = .wSkrest v
  · obtain ⟨v, rfl⟩ := hskrest
    have signalled := exec_wSkrest_signalled h
    exact ⟨signalled.irqen, signalled.pending⟩
  · have signalled := exec_signalled hirqen (fun v e => hskrest ⟨v, e⟩) hreset h
    exact ⟨signalled.irqen, signalled.pending⟩

/-- Settles O43. -/
theorem pendingBitsStandUntilAcknowledged : Obligations.PendingBitsStandUntilAcknowledged := by
  intro i s t hirqen hreset h
  obtain ⟨-, stands, -⟩ := exec_pending hirqen hreset h
  exact stands

/-- Settles O44. -/
theorem onlyEnabledSourcesBecomePending : Obligations.OnlyEnabledSourcesBecomePending := by
  intro i s t h hirqen hreset
  obtain ⟨same, -, new⟩ := exec_pending hirqen hreset h
  exact ⟨same, new⟩

/-! ### The statement on SKSTAT -/

/-- Under a mask without the transmitting bit, what is signalled leaves SKSTAT. -/
theorem Signalled.skstat_and {s t : State} (h : Signalled s t) {mask : Byte} (hmask : ~~~skstatBusy &&& mask = mask) :
    t.skstat &&& mask = s.skstat &&& mask := by
  rw [← hmask, ← BitVec.and_assoc, ← BitVec.and_assoc, h.skstat]

/-- Every operation but SKREST and `RESET` moves only the transmitting bit of SKSTAT. -/
theorem exec_skstat_and {i : Instr} {s t : State} (hskrest : ∀ v, i ≠ .wSkrest v) (hreset : i ≠ .reset)
    (h : exec i s = .next t) {mask : Byte} (hmask : ~~~skstatBusy &&& mask = mask) : t.skstat &&& mask = s.skstat &&& mask := by
  by_cases hirqen : ∃ v, i = .wIrqen v
  · obtain ⟨v, rfl⟩ := hirqen
    exact (exec_wIrqen_signalled h).skstat_and hmask
  · exact (exec_signalled (fun v e => hirqen ⟨v, e⟩) hskrest hreset h).skstat_and hmask

/-- Settles O50: SKREST clears the error bits before its `Settle`, every other operation leaves them. -/
theorem errorBitsAreClearedOnlyBySkrest : Obligations.ErrorBitsAreClearedOnlyBySkrest := by
  intro i s t h hreset
  by_cases hskrest : ∃ v, i = .wSkrest v
  · obtain ⟨v, rfl⟩ := hskrest
    have signalled := exec_wSkrest_signalled h
    have others : t.skstat &&& 0x1D#8 = s.skstat &&& ~~~skstatErrors &&& 0x1D#8 := signalled.skstat_and rfl
    have errors : t.skstat &&& 0xE0#8 = s.skstat &&& ~~~skstatErrors &&& 0xE0#8 := signalled.skstat_and rfl
    rw [BitVec.and_assoc] at others errors
    have cleared : t.skstat &&& 0xE0#8 = 0#8 := errors.trans (BitVec.and_zero)
    exact ⟨others, by rw [cleared, BitVec.zero_and], fun ne => absurd rfl (ne v)⟩
  · have other (v : Byte) : i ≠ .wSkrest v := fun e => hskrest ⟨v, e⟩
    have errors : t.skstat &&& 0xE0#8 = s.skstat &&& 0xE0#8 := exec_skstat_and other hreset h rfl
    refine ⟨exec_skstat_and other hreset h rfl, ?_, fun _ => errors⟩
    rw [errors]
    ext n hn
    grind

end Sys2Proof.Machine
end

section
/-!
PROOFS. The invariant of `10_state.md` R34 in parts: the counters, the timers, the serial unit, the paddles, the gating indices
and the RANDOM indices. What the parts say of one paddle input over time (`45_paddle.md` R197); all of them hold at reset.
-/

namespace Sys2Proof.Machine

/-! ### The parts -/

/-- R34 (b) for one channel: the counter is at most the divisor, and NEVER only under the option. -/
structure Channel.CounterSound (option : Bool) (k : Channel) : Prop where
  bound : ∃ d, k.divisor = .at d ∧ ∀ n, k.counter = .at n → n ≤ d
  never : k.counter = .never → option = true

/-- R34 (b) for all channels. -/
def CountersSound (s : State) : Prop := ∀ c, (s.ch c).CounterSound s.cfg.optInaudible

/-- A timer is armed with a period above `least`, or not at all (`10_state.md` R27). -/
structure Timer.Sound (least : Nat) (t : Timer) : Prop where
  armed : t.deadline.isSome = t.period.isSome
  long : ∀ p, t.period = some p → least < p

/-- R34 (d), (e) for the transmitting bit and the two serial deadlines. -/
structure SerialSound (busy : Bool) (ready complete : Option Nat) : Prop where
  transmitting : busy = complete.isSome
  readyFirst : ∀ r, ready = some r → ∃ d, complete = some d ∧ r < d

/-- R34 (f) for one paddle input, with its ALLPOT bit: a pending conversion ends at the target's units after the start, a
finished one has latched its target. -/
structure PotSound (start unit now : Nat) (x : Bool × PotSlot) : Prop where
  pending : ∀ d, x.2.deadline = some d → x.1 = true ∧ ∃ t, x.2.target = some t ∧ d = start + t * unit
  running : ∀ t, x.1 = true → x.2.target = some t → x.2.deadline.isSome = true
  done : ∀ t, x.1 = false → x.2.target = some t → x.2.latched = BitVec.ofNat 8 t ∧ start + t * unit ≤ now
  targetBound : ∀ t, x.2.target = some t → t ≤ potMax
  latchedBound : x.2.latched.toNat ≤ potMax

/-- The parts of R34 that the control part of the state decides, but for (i), that it is settled. -/
structure ControlSound (s : State) : Prop where
  cfgValid : s.cfg.Valid
  pendingEnabled : s.irqst &&& ~~~s.irqen = 0#8
  serial : SerialSound (s.skstat.getLsbD 1) s.serReady s.serComplete
  timers : ∀ k, (s.timer k).Sound s.cfg.timerMin
  pots : ∀ i, PotSound s.potStart s.potUnit s.now (potBitAndSlot s i)
  potUnitPositive : 1 ≤ s.potUnit
  potStartPast : s.potStart ≤ s.now
  fractBound : s.sampleFract < 256

/-- R34 (g) for the gating indices: each follows the time (`40_polynomial.md` R85). -/
structure GatingSound (s : State) : Prop where
  index4 : s.p4 = s.now % polyLen 4
  index5 : s.p5 = s.now % polyLen 5
  index9 : s.p9 = s.now % polyLen 9
  index17 : s.p17 = s.now % polyLen 17

/-- R34 (g) for the RANDOM indices, whose last read lies in the past. -/
structure RandomSound (s : State) : Prop where
  random9 : s.r9 < polyLen 9
  random17 : s.r17 < polyLen 17
  randLastPast : s.randLast ≤ s.now

section
variable {s : State}

theorem State.Inv.countersSound (h : s.Inv) : CountersSound s :=
  fun c => ⟨⟨_, h.divisorFormula c, h.counterBound c⟩, h.neverOnlyUnderOption c⟩

theorem State.Inv.controlSound (h : s.Inv) : ControlSound s where
  cfgValid := h.cfgValid
  pendingEnabled := h.pendingEnabled
  serial := ⟨h.transmitting, h.readyBeforeComplete⟩
  timers k := ⟨h.timersArmed k, h.timerPeriodLong k⟩
  pots i := ⟨h.potPending i, h.potRunning i, h.potDone i, h.potTargetBound i, h.potLatchedBound i⟩
  potUnitPositive := h.potUnitPositive
  potStartPast := h.potStartPast
  fractBound := h.fractBound

theorem State.Inv.gatingSound (h : s.Inv) : GatingSound s := ⟨h.index4, h.index5, h.index9, h.index17⟩

theorem State.Inv.randomSound (h : s.Inv) : RandomSound s := ⟨h.random9, h.random17, h.randLastPast⟩

/-- The derived fields of configured channels by the model's own formulas (`41_channel.md` R101 to R104). -/
theorem Configured.formulas (h : Configured s) (c : Ch) : (s.ch c).divisor = .at (divisorOf s c) ∧
    (s.ch c).volume = (if s.cfg.optInaudible && !(s.ch c).audible then volumeOf s c >>> 1 else volumeOf s c) ∧
    (s.ch c).audible = audibleOf s c := by
  have derived := (h c).trans (derived_configured s c)
  have audible : (s.ch c).audible = audibleOf s c := congrArg (·.2.2) derived
  rw [audible]
  exact ⟨congrArg (·.1) derived, congrArg (·.2.1) derived, rfl⟩

/-- The invariant from its parts. -/
theorem State.Inv.of_parts (configured : Configured s) (counters : CountersSound s) (control : ControlSound s)
    (gating : GatingSound s) (random : RandomSound s) (settled : s.Settled) : s.Inv where
  cfgValid := control.cfgValid
  divisorFormula c := (configured.formulas c).1
  counterBound c n hn := by
    obtain ⟨d, hd, bound⟩ := (counters c).bound
    obtain ⟨hdivisor, -⟩ := configured.formulas c
    obtain rfl := Ticks.at.inj (hd.symm.trans hdivisor)
    exact bound n hn
  neverOnlyUnderOption c := (counters c).never
  audibleFormula c := (configured.formulas c).2.2
  volumeFormula c := (configured.formulas c).2.1
  pendingEnabled := control.pendingEnabled
  transmitting := control.serial.transmitting
  readyBeforeComplete := control.serial.readyFirst
  timersArmed k := (control.timers k).armed
  timerPeriodLong k := (control.timers k).long
  potPending i := (control.pots i).pending
  potRunning i := (control.pots i).running
  potDone i := (control.pots i).done
  potTargetBound i := (control.pots i).targetBound
  potLatchedBound i := (control.pots i).latchedBound
  potUnitPositive := control.potUnitPositive
  potStartPast := control.potStartPast
  randLastPast := random.randLastPast
  index4 := gating.index4
  index5 := gating.index5
  index9 := gating.index9
  index17 := gating.index17
  random9 := random.random9
  random17 := random.random17
  fractBound := control.fractBound
  settled := settled

end

/-! ### A connected paddle input -/

/-- An input with a target converts as long as its deadline is set, which is then the tick of its target (`45_paddle.md` R191). -/
theorem PotSound.converting_iff {start unit now t : Nat} {x : Bool × PotSlot} (h : PotSound start unit now x)
    (ahead : ∀ d, x.2.deadline = some d → now < d) (ht : x.2.target = some t) : x.1 = true ↔ now < start + t * unit := by
  constructor
  · intro hx
    obtain ⟨d, hd⟩ := Option.isSome_iff_exists.1 (h.running t hx ht)
    obtain ⟨-, t', ht', rfl⟩ := h.pending d hd
    obtain rfl := Option.some.inj (ht.symm.trans ht')
    exact ahead _ hd
  · intro hlt
    by_contra hx
    obtain ⟨-, reached⟩ := h.done t (Bool.eq_false_of_not_eq_true hx) ht
    exact Nat.not_lt.2 reached hlt

/-- A number of at most `POT_MAX` fits in the byte of a read. -/
theorem toNat_ofNat_of_le_potMax {n : Nat} (h : n ≤ potMax) : (BitVec.ofNat 8 n).toNat = n := by
  have bound : n < 2 ^ 8 := Nat.lt_of_le_of_lt h (by decide)
  rw [BitVec.toNat_ofNat, Nat.mod_eq_of_lt bound]

/-- What a read of a connected input returns (`45_paddle.md` R193). -/
theorem ControlSound.potRead_toNat {s : State} (h : ControlSound s) {i : Fin 8} {t : Nat} (ht : (s.pot i).target = some t) :
    (potRead s i).toNat = if converting s i then min ((s.now - s.potStart) / s.potUnit) t else t := by
  have bound := (h.pots i).targetBound t ht
  rw [potRead]
  split
  · rw [ht, Option.getD_some, toNat_ofNat_of_le_potMax ((Nat.min_le_right _ _).trans bound)]
  · next hx =>
    obtain ⟨latched, -⟩ := (h.pots i).done t (Bool.eq_false_of_not_eq_true hx) ht
    exact (congrArg BitVec.toNat latched).trans (toNat_ofNat_of_le_potMax bound)

/-- Settles O54. -/
theorem connectedPotsReachTheirTarget : Obligations.ConnectedPotsReachTheirTarget := by
  intro s i t hinv ht
  have control := hinv.controlSound
  obtain ⟨-, -, -, ahead⟩ := hinv.settled.ahead
  have before : converting s i = true ↔ s.now < s.potStart + t * s.potUnit :=
    (control.pots i).converting_iff (ahead i) ht
  refine ⟨before, ?_, fun reached => ?_⟩
  · rw [control.potRead_toNat ht]
    split
    · exact Nat.min_le_right _ _
    · exact le_rfl
  · rw [control.potRead_toNat ht, if_neg fun hx => Nat.not_lt.2 reached (before.1 hx)]

/-! ### The reset state -/

theorem resetFor_ch (g : Config) (e : HostSide) (c : Ch) : (State.resetFor g e).ch c = Channel.reset g := by
  cases c <;> rfl

theorem resetFor_timer (g : Config) (e : HostSide) (k : TimerId) : (State.resetFor g e).timer k = Timer.reset := by
  cases k <;> rfl

theorem resetFor_pot (g : Config) (e : HostSide) (i : Fin 8) : (State.resetFor g e).pot i = PotSlot.reset := by
  simp [State.resetFor, State.pot]

theorem resetFor_potBitAndSlot (g : Config) (e : HostSide) (i : Fin 8) :
    potBitAndSlot (State.resetFor g e) i = (false, PotSlot.reset) :=
  Prod.ext (BitVec.getLsbD_zero) (resetFor_pot g e i)

/-- Under a valid configuration the clamp to 1 does not act on the divisor of the register byte 0x00. -/
theorem reset_divisor_pos {g : Config} (h : g.Valid) : 1 ≤ (0 + g.kLo) * g.m64k := by
  obtain ⟨-, -, -, -, -, -, -, -, hlo, -, -, h64, -⟩ := h
  exact Nat.mul_pos (by rwa [Nat.zero_add]) h64

/-- Settles O9. -/
theorem resetLeavesTheResetTable : Obligations.ResetLeavesTheResetTable := by
  intro s hvalid
  refine ⟨State.resetFor s.cfg s.env, execReset_of_valid hvalid, rfl, rfl, rfl, fun c => ?_, rfl, rfl, rfl, rfl, rfl, rfl, rfl,
    rfl, rfl, rfl, resetFor_timer _ _, rfl, rfl, rfl, rfl, rfl, rfl, rfl, rfl, resetFor_pot _ _, rfl, rfl,
    Nat.shiftRight_eq_div_pow _ 8, rfl⟩
  rw [resetFor_ch, Channel.reset, Nat.max_eq_right (reset_divisor_pos hvalid)]
  rfl

theorem resetFor_settled (g : Config) (e : HostSide) : (State.resetFor g e).Settled := by
  refine State.settled_of_ahead (fun k d hd => ?_) nofun nofun (fun i d hd => ?_)
  · rw [resetFor_timer] at hd
    cases hd
  · rw [resetFor_pot] at hd
    cases hd

theorem resetFor_countersSound (g : Config) (e : HostSide) : CountersSound (State.resetFor g e) := by
  intro c
  rw [resetFor_ch]
  exact ⟨⟨_, rfl, fun n hn => (Ticks.at.inj hn).ge⟩, nofun⟩

theorem resetFor_controlSound {g : Config} (h : g.Valid) (e : HostSide) : ControlSound (State.resetFor g e) where
  cfgValid := h
  pendingEnabled := BitVec.zero_and
  serial := ⟨BitVec.getLsbD_zero, nofun⟩
  timers k := by
    rw [resetFor_timer]
    exact ⟨rfl, nofun⟩
  pots i := by
    rw [resetFor_potBitAndSlot]
    exact ⟨nofun, nofun, nofun, nofun, Nat.zero_le _⟩
  potUnitPositive := by
    obtain ⟨-, -, -, -, -, -, -, hslow, -⟩ := h
    exact hslow
  potStartPast := le_rfl
  fractBound := Nat.mod_lt _ (by decide)

theorem resetFor_randomSound (g : Config) (e : HostSide) : RandomSound (State.resetFor g e) where
  random9 := show 0 < polyLen 9 by decide
  random17 := show 0 < polyLen 17 by decide
  randLastPast := le_rfl

/-- Settles O11, part by part. -/
theorem invariantHoldsAtReset : Obligations.InvariantHoldsAtReset := fun g e hvalid =>
  .of_parts (configured_resetFor g e) (resetFor_countersSound g e) (resetFor_controlSound hvalid e) ⟨rfl, rfl, rfl, rfl⟩
    (resetFor_randomSound g e) (resetFor_settled g e)

end Sys2Proof.Machine
end

section
/-!
PROOFS. The control part of the invariant over every operation (`10_state.md` R34 (c) to (f), (h), (i)): `Settle` keeps it in
every state and leaves nothing due where the timers' deadlines lie ahead, so of a bus write only its own effect is left to
show; the scheduler advances, samples and settles.
-/

namespace Sys2Proof.Machine

/-! ### Only the control part matters -/

theorem State.timer_eq {s t : State} (h1 : t.t1 = s.t1) (h2 : t.t2 = s.t2) (h4 : t.t4 = s.t4) (k : TimerId) :
    t.timer k = s.timer k := by
  cases k with
  | t1 => exact h1
  | t2 => exact h2
  | t4 => exact h4

theorem controlSound_controlPart_iff (s : State) : ControlSound (controlPart s) ↔ ControlSound s := by
  have timer (k : TimerId) : (controlPart s).timer k = s.timer k := State.timer_eq rfl rfl rfl k
  constructor
  · exact fun h => ⟨h.cfgValid, h.pendingEnabled, h.serial, fun k => timer k ▸ h.timers k, h.pots, h.potUnitPositive,
      h.potStartPast, h.fractBound⟩
  · exact fun h => ⟨h.cfgValid, h.pendingEnabled, h.serial, fun k => (timer k).symm ▸ h.timers k, h.pots, h.potUnitPositive,
      h.potStartPast, h.fractBound⟩

theorem ControlSound.of_controlPart_eq {s t : State} (h : ControlSound s) (same : controlPart t = controlPart s) :
    ControlSound t := by
  rw [← controlSound_controlPart_iff, same, controlSound_controlPart_iff]
  exact h

theorem State.Settled.of_controlPart_eq {s t : State} (h : s.Settled) (same : controlPart t = controlPart s) : t.Settled := by
  have blanked : (controlPart s).Settled := h
  rw [← same] at blanked
  exact blanked

/-! ### `Settle` -/

theorem Timer.Sound.movedIfDue {least : Nat} {t : Timer} (h : t.Sound least) (now : Nat) : (t.movedIfDue now).Sound least where
  armed := by
    rw [Timer.movedIfDue_period, ← h.armed]
    unfold Timer.movedIfDue
    split
    · next hd _ => split <;> simp [hd]
    · rfl
  long := by
    rw [Timer.movedIfDue_period]
    exact h.long

theorem isSome_cleared (now : Nat) (o : Option Nat) :
    (if due now o then none else o).isSome = (o.isSome && !due now o) := by
  cases due now o <;> simp

/-- "Complete" clears its deadline and the transmitting bit together, and "ready" is never due after it. -/
theorem SerialSound.settle {busy : Bool} {ready complete : Option Nat} (h : SerialSound busy ready complete) (now : Nat) :
    SerialSound (busy && !due now complete) (if due now ready then none else ready)
      (if due now complete then none else complete) where
  transmitting := by rw [isSome_cleared, h.transmitting]
  readyFirst r hr := by
    have ahead := ahead_of_cleared hr
    split at hr
    · cases hr
    · obtain ⟨d, hd, hlt⟩ := h.readyFirst r hr
      have later : due now complete = false := by
        rw [hd]
        exact decide_eq_false (Nat.not_le.2 (ahead.trans hlt))
      exact ⟨d, by rw [later, hd]; rfl, hlt⟩

/-- A conversion that is due has reached its target (`45_paddle.md` R195). -/
theorem PotSound.completedIfDue {start unit now : Nat} {x : Bool × PotSlot} (h : PotSound start unit now x) :
    PotSound start unit now (completedIfDue now x) := by
  by_cases hdue : ∃ d, x.2.deadline = some d ∧ d ≤ now
  · obtain ⟨d, hd, hle⟩ := hdue
    obtain ⟨-, t, ht, rfl⟩ := h.pending d hd
    have bound := h.targetBound t ht
    rw [completedIfDue_of_due hd ht hle]
    refine ⟨nofun, nofun, fun u _ hu => ?_, fun u hu => Option.some.inj hu ▸ bound, ?_⟩
    · obtain rfl := Option.some.inj hu
      exact ⟨rfl, hle⟩
    · exact (toNat_ofNat_of_le_potMax bound).trans_le bound
  · rw [completedIfDue_of_not_due fun d _ hd _ => Nat.lt_of_not_le fun hle => hdue ⟨d, hd, hle⟩]
    exact h

/-- No event but "complete" touches the transmitting bit. -/
theorem settle_busy (s : State) : (settle s).skstat.getLsbD 1 = (s.skstat.getLsbD 1 && !due s.now s.serComplete) := by
  have timer (k : TimerId) (u : State) : (timerExpiry k u).skstat = u.skstat := by
    obtain ⟨d, q, l, h⟩ := timerExpiry_frame k u
    rw [h]
    exact State.setTimer_skstat u k _
  have ready (u : State) : (serialReady u).skstat = u.skstat := by
    obtain ⟨d, q, l, h⟩ := serialReady_frame u
    rw [h]
  have complete (u : State) : (serialComplete u).skstat.getLsbD 1 = (u.skstat.getLsbD 1 && !due u.now u.serComplete) := by
    unfold serialComplete
    split
    · next hdue =>
      obtain ⟨q, l, h⟩ := raiseIrq_frame irqSerComplete { u with serComplete := none, skstat := u.skstat &&& ~~~skstatBusy }
      rw [h, hdue]
      simp [skstatBusy]
    · next hdue => simp [hdue]
  obtain ⟨a, p, hpots⟩ := settlePots_frame potInputs (serialComplete (serialReady (settleTimers s)))
  rw [settle_parts, hpots]
  change (serialComplete (serialReady (settleTimers s))).skstat.getLsbD 1 = _
  rw [complete, ready, (serialReady_untimed _).now, settleTimers_now, (serialReady_others _).2.1, (settleTimers_others s).2.1,
    settleTimers, timer, timer, timer]

/-- `Settle` keeps the control part of the invariant in every state (`42_scheduler.md` R143). -/
theorem ControlSound.settle {s : State} (h : ControlSound s) : ControlSound (settle s) := by
  have same := settle_settings s
  obtain ⟨hstart, hunit⟩ := same.potStart
  have now := (settle_untimed s).now
  constructor
  case cfgValid =>
    rw [same.cfg]
    exact h.cfgValid
  case pendingEnabled => exact (settle_signalled s).pendingEnabled h.pendingEnabled
  case serial =>
    rw [settle_busy, settle_serReady, settle_serComplete]
    exact h.serial.settle s.now
  case timers =>
    intro k
    rw [settle_timer, same.cfg]
    exact (h.timers k).movedIfDue s.now
  case pots =>
    intro i
    rw [settle_potBitAndSlot, hstart, hunit, now]
    exact (h.pots i).completedIfDue
  case potUnitPositive =>
    rw [hunit]
    exact h.potUnitPositive
  case potStartPast =>
    rw [hstart, now]
    exact h.potStartPast
  case fractBound =>
    rw [(settle_samplePosition s).2]
    exact h.fractBound

/-- Every set deadline of a timer lies ahead. -/
def TimersAhead (s : State) : Prop := ∀ k d, (s.timer k).deadline = some d → s.now < d

/-- `Settle` leaves nothing due where the timers' deadlines lie ahead. -/
theorem ControlSound.settled_settle {s : State} (h : ControlSound s) (ahead : TimersAhead s) : (Machine.settle s).Settled := by
  refine settleLeavesNothingDue s (fun k d hd => ?_) (fun i d hd => ?_)
  · have armed : (s.timer k).period.isSome = true := by rw [← (h.timers k).armed, hd, Option.isSome_some]
    obtain ⟨p, hp⟩ := Option.isSome_iff_exists.1 armed
    exact ⟨p, hp, Nat.lt_add_right p (ahead k d hd)⟩
  · obtain ⟨-, t, ht, -⟩ := (h.pots i).pending d hd
    exact Option.isSome_iff_exists.2 ⟨t, ht⟩

/-! ### The effects of the bus writes -/

/-- A rearm gives each timer a period above `TIMER_MIN` or none (`43_timer_irq.md` R152). -/
theorem timerPeriod_long {s : State} {k : TimerId} {p : Nat} (h : timerPeriod s k = some p) : s.cfg.timerMin < p := by
  have long {d : Ticks} (h : periodOf s d = some p) : s.cfg.timerMin < p := by
    unfold periodOf at h
    split at h
    · split at h
      · next hlong => exact Option.some.inj h ▸ hlong
      · cases h
    · cases h
  cases k with
  | t1 =>
    simp only [timerPeriod] at h
    split at h <;> exact long h
  | t2 | t4 => exact long h

theorem ControlSound.rearmAll {s : State} (h : ControlSound s) : ControlSound (rearmAll s) where
  cfgValid := h.cfgValid
  pendingEnabled := h.pendingEnabled
  serial := h.serial
  timers k := by
    rw [rearmAll_timer]
    exact ⟨Option.isSome_map, fun p => timerPeriod_long⟩
  pots := h.pots
  potUnitPositive := h.potUnitPositive
  potStartPast := h.potStartPast
  fractBound := h.fractBound

/-- Other interrupt, status and serial registers that meet their own clauses: the other clauses do not look at them. -/
theorem ControlSound.of_registers {s : State} (h : ControlSound s) {en st sk : Byte} {ready complete : Option Nat}
    (pending : st &&& ~~~en = 0#8) (serial : SerialSound (sk.getLsbD 1) ready complete) : ControlSound
      { s with irqen := en, irqst := st, skstat := sk, serReady := ready, serComplete := complete } where
  cfgValid := h.cfgValid
  pendingEnabled := pending
  serial := serial
  timers k := State.timer_eq (s := s) rfl rfl rfl k ▸ h.timers k
  pots := h.pots
  potUnitPositive := h.potUnitPositive
  potStartPast := h.potStartPast
  fractBound := h.fractBound

/-- SKREST leaves the transmitting bit (`44_serial.md` R175). -/
theorem ControlSound.errorsCleared {s : State} (h : ControlSound s) : ControlSound (errorsCleared s) := by
  have busy : (s.skstat &&& ~~~skstatErrors).getLsbD 1 = s.skstat.getLsbD 1 := by simp [skstatErrors]
  exact h.of_registers h.pendingEnabled (busy ▸ h.serial)

/-- The acknowledge leaves only enabled bits pending (`43_timer_irq.md` R153). -/
theorem ControlSound.acknowledgeEnable {s : State} (h : ControlSound s) (v : Byte) : ControlSound (acknowledgeEnable v s) := by
  have pending : s.irqst &&& v &&& ~~~v = 0#8 := by
    rw [BitVec.and_assoc, BitVec.and_not_self]
    exact BitVec.and_zero
  exact h.of_registers pending h.serial

/-- A transmission sets both deadlines, "ready" before "complete" (`44_serial.md` R171, `00_scope.md` R5). -/
theorem ControlSound.writeSerout {s : State} (h : ControlSound s) (v : Byte) : ControlSound (writeSerout v s) := by
  obtain ⟨-, -, -, -, hless, -⟩ := h.cfgValid
  have busy : (s.skstat ||| skstatBusy).getLsbD 1 = true := by simp [skstatBusy]
  have serial : SerialSound ((s.skstat ||| skstatBusy).getLsbD 1) (some (s.now + s.cfg.tSerReady))
      (some (s.now + s.cfg.tSerComplete)) :=
    ⟨busy, fun r hr => ⟨_, rfl, Option.some.inj hr ▸ Nat.add_lt_add_left hless s.now⟩⟩
  exact (h.of_registers h.pendingEnabled serial).of_controlPart_eq rfl

/-- An input that `potgo` has just started, whatever the answer (`45_paddle.md` R191). -/
theorem potSound_started {p : PotSlot} (latched : p.latched.toNat ≤ potMax) (now unit : Nat) (a : Option Nat) :
    PotSound now unit now (true, p.started now unit a) := by
  cases a with
  | none => exact ⟨nofun, nofun, nofun, nofun, latched⟩
  | some v =>
    exact ⟨fun d hd => ⟨rfl, _, rfl, (Option.some.inj hd).symm⟩, fun _ _ _ => rfl, nofun,
      fun t ht => Option.some.inj ht ▸ Nat.min_le_right v potMax, latched⟩

theorem ControlSound.potgo {s : State} (h : ControlSound s) : ControlSound (potgo s) := by
  have input (i : Fin 8) : potBitAndSlot (Machine.potgo s) i =
      (true, (s.pot i).started s.now (selectedPotUnit s) (s.env.potAnswers[i.val]?).join) :=
    Prod.ext (potgo_converting s i) (potgo_pot s i)
  obtain ⟨p, hp⟩ := potgo_eq s
  rw [hp] at input ⊢
  constructor
  case cfgValid => exact h.cfgValid
  case pendingEnabled => exact h.pendingEnabled
  case serial => exact h.serial
  case timers => exact fun k => State.timer_eq (s := s) rfl rfl rfl k ▸ h.timers k
  case pots =>
    intro i
    rw [input]
    exact potSound_started (h.pots i).latchedBound _ _ _
  case potUnitPositive => exact selectedPotUnit_pos h.cfgValid
  case potStartPast => exact le_rfl
  case fractBound => exact h.fractBound

/-- A bus write in a settled state ends in the `Settle` of a state that keeps the control part and has the timers ahead. -/
theorem exec_isBusWrite_control {i : Instr} (hi : isBusWrite i = true) {s t : State} (hs : ControlSound s) (hset : s.Settled)
    (h : exec i s = .next t) : ∃ u, t = settle u ∧ ControlSound u ∧ TimersAhead u := by
  obtain ⟨ahead, -⟩ := hset.ahead
  have effect {u : State} (control : ControlSound u) (now : u.now = s.now) (timers : ∀ k, u.timer k = s.timer k)
      (h : Host.Outcome.next (φ := Fault) (ρ := Refusal) (settle u) = .next t) :
      ∃ u, t = settle u ∧ ControlSound u ∧ TimersAhead u := by
    refine ⟨u, (Host.Outcome.next.inj h).symm, control, fun k d hd => ?_⟩
    rw [now]
    exact ahead k d (timers k ▸ hd)
  cases i with
  | wAudf1 v | wAudc1 v | wAudf2 v | wAudc2 v | wAudf3 v | wAudc3 v | wAudf4 v | wAudc4 v | wAudctl v | wUnmapped v | wSkctl v
  | wOutOfRange off v =>
    obtain ⟨u, hu, same⟩ := exec_isPlainWrite_next rfl h
    exact ⟨u, hu, hs.of_controlPart_eq same, (hset.of_controlPart_eq same).ahead.1⟩
  | wStimer v => exact ⟨rearmAll s, (Host.Outcome.next.inj h).symm, hs.rearmAll, (rearmAll_settled hset).ahead.1⟩
  | wSkrest v => exact effect hs.errorsCleared rfl (State.timer_eq rfl rfl rfl) h
  | wIrqen v => exact effect (hs.acknowledgeEnable v) rfl (State.timer_eq rfl rfl rfl) h
  | wSerout v => exact effect (hs.writeSerout v) rfl (State.timer_eq rfl rfl rfl) h
  | wPotgo v =>
    obtain ⟨p, hp⟩ := potgo_eq s
    exact effect hs.potgo (potgo_untimed s).now (State.timer_eq (by rw [hp]) (by rw [hp]) (by rw [hp])) h
  | _ => cases hi

/-! ### The scheduler -/

/-- What an input has reached it has reached later, too. -/
theorem PotSound.later {start unit now : Nat} {x : Bool × PotSlot} (h : PotSound start unit now x) (e : Nat) :
    PotSound start unit (now + e) x where
  pending := h.pending
  running := h.running
  done t hx ht := (h.done t hx ht).imp_right (Nat.le_add_right_of_le)
  targetBound := h.targetBound
  latchedBound := h.latchedBound

theorem ControlSound.advance {s : State} (h : ControlSound s) (e : Nat) : ControlSound (advance e s) where
  cfgValid := h.cfgValid
  pendingEnabled := h.pendingEnabled
  serial := h.serial
  timers k := State.timer_eq (t := Machine.advance e s) (s := s) rfl rfl rfl k ▸ h.timers k
  pots i := (h.pots i).later e
  potUnitPositive := h.potUnitPositive
  potStartPast := Nat.le_add_right_of_le h.potStartPast
  fractBound := h.fractBound

theorem ControlSound.sampleEvent {s : State} (h : ControlSound s) : ControlSound (sampleEvent s) where
  cfgValid := h.cfgValid
  pendingEnabled := h.pendingEnabled
  serial := h.serial
  timers k := State.timer_eq (t := Machine.sampleEvent s) (s := s) rfl rfl rfl k ▸ h.timers k
  pots := h.pots
  potUnitPositive := h.potUnitPositive
  potStartPast := h.potStartPast
  fractBound := Nat.mod_lt _ (by decide)

theorem controlPart_channelEvents (z s : State) : controlPart (channelEvents z s) = controlPart s := by
  obtain ⟨n1, n2, n3, n4, o1, o2, o3, o4, h⟩ := channelEvents_frame z s
  rw [h]
  rfl

theorem ControlSound.schedStep {s : State} (h : ControlSound s) : ControlSound (schedStep s) := by
  rw [schedStep_eq_settle, audioTick]
  have events (z : State) := (h.advance (minSelect s)).of_controlPart_eq (controlPart_channelEvents z _)
  split
  · exact (events _).sampleEvent.settle
  · exact (events _).settle

theorem exec_render_controlSound {n : Nat} {s t : State} (hs : ControlSound s) (h : exec (.render n) s = .next t) :
    ControlSound t := by
  obtain ⟨u, hu, ht⟩ := exec_render_next h
  rw [ht]
  exact (renderLoop_keeps (P := ControlSound) (fun _ => ControlSound.schedStep) _ _ s u hs hu).settle

/-- A `RENDER` from a state of the invariant ends settled. -/
theorem State.Inv.settled_of_render {n : Nat} {s t : State} (hinv : s.Inv) (h : exec (.render n) s = .next t) : t.Settled := by
  obtain ⟨u, hu, hnext⟩ := hinv.schedulable.exec_render n
  obtain rfl : u = t := Host.Outcome.next.inj (hnext.symm.trans h)
  exact (hinv.schedulable.after_renderLoop hu).settled

/-! ### Every operation -/

/-- Every operation keeps the control part of the invariant, and ends settled. -/
theorem State.Inv.exec_control {i : Instr} {s t : State} (hinv : s.Inv) (h : exec i s = .next t) :
    ControlSound t ∧ t.Settled := by
  have same {u : State} (e : controlPart u = controlPart s) : ControlSound u ∧ u.Settled :=
    ⟨hinv.controlSound.of_controlPart_eq e, hinv.settled.of_controlPart_eq e⟩
  cases i with
  | wAudf1 v | wAudc1 v | wAudf2 v | wAudc2 v | wAudf3 v | wAudc3 v | wAudf4 v | wAudc4 v | wAudctl v | wStimer v
  | wSkrest v | wPotgo v | wUnmapped v | wSerout v | wIrqen v | wSkctl v | wOutOfRange off v =>
    obtain ⟨u, hu, control, ahead⟩ := exec_isBusWrite_control rfl hinv.controlSound hinv.settled h
    exact hu ▸ ⟨control.settle, control.settled_settle ahead⟩
  | rPot0 | rPot1 | rPot2 | rPot3 | rPot4 | rPot5 | rPot6 | rPot7 | rAllpot | rKbcode | rRandom | rUnmappedB | rUnmappedC
  | rSerin | rIrqst | rSkstat | rOutOfRange off =>
    obtain ⟨m, n, l, b, e, rfl⟩ := exec_isBusRead_frame rfl h
    exact same rfl
  | evCh1 | evCh2 | evCh3 | evCh4 => exact Host.Outcome.next.inj h ▸ same (controlPart_channelEvent _ s)
  | evSample => exact Host.Outcome.next.inj h ▸ ⟨hinv.controlSound.sampleEvent, hinv.settled⟩
  | evT1 | evT2 | evT4 | evSerReady | evSerComplete | evPot0 | evPot1 | evPot2 | evPot3 | evPot4 | evPot5 | evPot6 | evPot7 =>
    rw [eventsNotDueChangeNothing s hinv.settled _ (by simp)] at h
    exact Host.Outcome.next.inj h ▸ same rfl
  | render n => exact ⟨exec_render_controlSound hinv.controlSound h, hinv.settled_of_render h⟩
  | build n slice =>
    obtain ⟨e, rfl⟩ := exec_build_frame h
    exact same rfl
  | reset =>
    obtain ⟨hvalid, rfl⟩ := exec_reset_next h
    exact ⟨resetFor_controlSound hvalid _, resetFor_settled _ _⟩

end Sys2Proof.Machine
end

section
/-!
PROOFS. Every step keeps the invariant of `10_state.md` R34: the counters over every operation (b), the gating and the RANDOM
indices (g), and all parts together, for the operations and for what the host does between them.
-/

namespace Sys2Proof.Machine

/-! ### The counters -/

/-- Of a record only the divisor and the counter matter. -/
theorem Channel.CounterSound.congr {option : Bool} {k l : Channel} (h : k.CounterSound option) (hd : l.divisor = k.divisor)
    (hn : l.counter = k.counter) : l.CounterSound option := by
  refine ⟨?_, ?_⟩
  · rw [hd, hn]
    exact h.bound
  · rw [hn]
    exact h.never

/-- `Configure` clamps the counter to the divisor, or stops it under the option (`41_channel.md` R104, R105). -/
theorem configured_counterSound (g : Config) (d : Nat) (k : Channel) :
    (Reference.configured g d k).CounterSound g.optInaudible := by
  unfold Reference.configured
  simp only
  split
  · next h =>
    obtain ⟨option, -⟩ := Bool.and_eq_true_iff.1 h
    exact ⟨⟨d, rfl, nofun⟩, fun _ => option⟩
  · cases k.counter
    · next n => exact ⟨⟨d, rfl, fun m hm => Ticks.at.inj hm ▸ Nat.min_le_right n d⟩, nofun⟩
    · exact ⟨⟨d, rfl, fun m hm => (Ticks.at.inj hm).ge⟩, nofun⟩

/-- A channel event reloads the counter with the divisor, or stops it under the option (`41_channel.md` R120, R104). -/
theorem fired_counterSound {s : State} {k : Channel} (h : k.CounterSound s.cfg.optInaudible) :
    (Reference.fired s k).CounterSound s.cfg.optInaudible := by
  obtain ⟨d, hd, -⟩ := h.bound
  unfold Reference.fired
  split
  · next inaudible =>
    obtain ⟨option, -⟩ := Bool.and_eq_true_iff.1 inaudible
    exact ⟨⟨d, hd, nofun⟩, fun _ => option⟩
  · exact ⟨⟨d, hd, fun n hn => (Ticks.at.inj (hd.symm.trans hn)).ge⟩, fun never => nomatch hd.symm.trans never⟩

theorem fired_divisor (s : State) (k : Channel) : (Reference.fired s k).divisor = k.divisor := by
  unfold Reference.fired
  split <;> rfl

theorem Channel.CounterSound.minus {option : Bool} {k : Channel} (h : k.CounterSound option) (e : Nat) :
    ({ k with counter := k.counter.minus e } : Channel).CounterSound option := by
  obtain ⟨d, hd, bound⟩ := h.bound
  cases hc : k.counter
  · next m => exact ⟨⟨d, hd, fun n hn => Ticks.at.inj hn ▸ (Nat.sub_le m e).trans (bound m hc)⟩, nofun⟩
  · exact ⟨⟨d, hd, nofun⟩, fun _ => h.never hc⟩

/-! ### What keeps the counters -/

theorem CountersSound.of_ch_eq {s t : State} (h : CountersSound s) (hcfg : t.cfg = s.cfg) (hch : ∀ c, t.ch c = s.ch c) :
    CountersSound t := by
  intro c
  rw [hch, hcfg]
  exact h c

theorem State.ch_eq {s t : State} (h1 : t.ch1 = s.ch1) (h2 : t.ch2 = s.ch2) (h3 : t.ch3 = s.ch3) (h4 : t.ch4 = s.ch4) (c : Ch) :
    t.ch c = s.ch c := by
  cases c with
  | ch1 => exact h1
  | ch2 => exact h2
  | ch3 => exact h3
  | ch4 => exact h4

theorem CountersSound.setCh {s : State} (h : CountersSound s) (c : Ch) {k : Channel} (hk : k.CounterSound s.cfg.optInaudible) :
    CountersSound (s.setCh c k) := by
  intro d
  rw [State.setCh_cfg]
  by_cases hdc : d = c
  · rw [hdc, State.setCh_ch]
    exact hk
  · rw [State.setCh_ch_ne s k hdc]
    exact h d

theorem CountersSound.settle {s : State} (h : CountersSound s) : CountersSound (settle s) :=
  h.of_ch_eq (settle_settings s).cfg (settle_ch s)

theorem CountersSound.write_audf {s : State} (h : CountersSound s) (c : Ch) (v : Byte) :
    CountersSound (configure c (setAudf c v s)) := by
  rw [configure_setAudf]
  exact h.setCh c (configured_counterSound _ _ _)

theorem CountersSound.write_audc {s : State} (h : CountersSound s) (c : Ch) (v : Byte) :
    CountersSound (configure c (setAudc c v s)) := by
  rw [configure_setAudc]
  exact h.setCh c (configured_counterSound _ _ _)

theorem CountersSound.configure {s : State} (h : CountersSound s) (c : Ch) : CountersSound (configure c s) := by
  rw [configure_eq]
  exact h.setCh c (configured_counterSound _ _ _)

theorem CountersSound.writeJoinedAudf {s : State} (h : CountersSound s) (c d : Ch) (joined : Byte → Bool) (v : Byte) :
    CountersSound (writeJoinedAudf c d joined v s) := by
  rw [Machine.writeJoinedAudf]
  split
  · exact (h.write_audf c v).configure d
  · exact h.write_audf c v

theorem countersSound_foldl_configure (s : State) : CountersSound (channelOrder.foldl (fun s c => configure c s) s) := by
  rw [foldl_configure_channelOrder]
  intro c
  cases c with
  | ch1 | ch2 | ch3 | ch4 => exact configured_counterSound _ _ _

/-- A rearm puts every counter at 0 (`43_timer_irq.md` R151). -/
theorem CountersSound.rearmAll {s : State} (h : CountersSound s) : CountersSound (rearmAll s) := by
  intro c
  have zero : (Machine.rearmAll s).ch c = { s.ch c with counter := .at 0 } := by cases c <;> rfl
  obtain ⟨d, hd, -⟩ := (h c).bound
  rw [zero]
  exact ⟨⟨d, hd, fun n hn => Ticks.at.inj hn ▸ Nat.zero_le d⟩, nofun⟩

theorem CountersSound.channelEvent {s : State} (h : CountersSound s) (d : Ch) : CountersSound (channelEvent d s) := by
  intro c
  obtain ⟨hcfg, -, hch⟩ := channelSettings_eq_iff.1 (channelSettings_channelEvent d s)
  obtain ⟨-, -, hdivisor, -⟩ := hch c
  have counter := channelEvent_counter d s c
  rw [hcfg]
  by_cases hcd : c = d
  · rw [if_pos hcd] at counter
    exact (fired_counterSound (h c)).congr (hdivisor.trans (fired_divisor s _).symm) counter
  · rw [if_neg hcd] at counter
    exact (h c).congr hdivisor counter

theorem CountersSound.channelEvents {s : State} (h : CountersSound s) (z : State) : CountersSound (channelEvents z s) := by
  unfold Machine.channelEvents
  induction channelOrder generalizing s with
  | nil => exact h
  | cons d l ih =>
    rw [List.foldl_cons]
    split
    · exact ih (h.channelEvent d)
    · exact ih h

theorem CountersSound.schedStep {s : State} (h : CountersSound s) : CountersSound (schedStep s) := by
  have advanced : CountersSound (advance (minSelect s) s) := by
    intro c
    rw [advance_ch]
    exact (h c).minus (minSelect s)
  refine (advanced.channelEvents (advance (minSelect s) s)).of_ch_eq ?_ (schedStep_ch s)
  rw [schedStep_cfg, (channelEvents_settings _ _).cfg]
  rfl

theorem exec_render_countersSound {n : Nat} {s t : State} (hs : CountersSound s) (h : exec (.render n) s = .next t) :
    CountersSound t := by
  obtain ⟨u, hu, ht⟩ := exec_render_next h
  rw [ht]
  exact (renderLoop_keeps (P := CountersSound) (fun _ => CountersSound.schedStep) _ _ s u hs hu).settle

/-- Every operation keeps the counters within their divisors (`41_channel.md` R126). -/
theorem State.Inv.exec_counters {i : Instr} {s t : State} (hinv : s.Inv) (h : exec i s = .next t) : CountersSound t := by
  have hs := hinv.countersSound
  have write {u : State} (hu : CountersSound u) (h : Host.Outcome.next (φ := Fault) (ρ := Refusal) (settle u) = .next t) :
      CountersSound t := Host.Outcome.next.inj h ▸ hu.settle
  cases i with
  | wAudf1 v => exact write (hs.writeJoinedAudf .ch1 .ch2 audctlJoin12 v) h
  | wAudf3 v => exact write (hs.writeJoinedAudf .ch3 .ch4 audctlJoin34 v) h
  | wAudf2 v | wAudf4 v => exact write (hs.write_audf _ v) h
  | wAudc1 v | wAudc2 v | wAudc3 v | wAudc4 v => exact write (hs.write_audc _ v) h
  | wAudctl v => exact write (countersSound_foldl_configure { s with audctl := v }) h
  | wStimer v => exact write hs.rearmAll h
  | wPotgo v =>
    obtain ⟨p, hp⟩ := potgo_eq s
    exact write (hs.of_ch_eq (potgo_untimed s).cfg fun c => by rw [hp]; exact State.ch_eq rfl rfl rfl rfl c) h
  | wSkrest v => exact write (hs.of_ch_eq (t := errorsCleared s) rfl (State.ch_eq rfl rfl rfl rfl)) h
  | wSerout v => exact write (hs.of_ch_eq (t := writeSerout v s) rfl (State.ch_eq rfl rfl rfl rfl)) h
  | wIrqen v => exact write (hs.of_ch_eq (t := acknowledgeEnable v s) rfl (State.ch_eq rfl rfl rfl rfl)) h
  | wSkctl v => exact write (hs.of_ch_eq (t := { s with skctl := v }) rfl (State.ch_eq rfl rfl rfl rfl)) h
  | wUnmapped v | wOutOfRange off v => exact write hs h
  | rPot0 | rPot1 | rPot2 | rPot3 | rPot4 | rPot5 | rPot6 | rPot7 | rAllpot | rKbcode | rRandom | rUnmappedB | rUnmappedC
  | rSerin | rIrqst | rSkstat | rOutOfRange off =>
    obtain ⟨m, n, l, b, e, rfl⟩ := exec_isBusRead_frame rfl h
    exact hs.of_ch_eq rfl (State.ch_eq rfl rfl rfl rfl)
  | evCh1 | evCh2 | evCh3 | evCh4 => exact Host.Outcome.next.inj h ▸ hs.channelEvent _
  | evSample => exact Host.Outcome.next.inj h ▸ hs.of_ch_eq rfl (sampleEvent_ch s)
  | evT1 | evT2 | evT4 | evSerReady | evSerComplete | evPot0 | evPot1 | evPot2 | evPot3 | evPot4 | evPot5 | evPot6 | evPot7 =>
    rw [eventsNotDueChangeNothing s hinv.settled _ (by simp)] at h
    exact Host.Outcome.next.inj h ▸ hs
  | render n => exact exec_render_countersSound hs h
  | build n slice =>
    obtain ⟨e, rfl⟩ := exec_build_frame h
    exact hs.of_ch_eq rfl (State.ch_eq rfl rfl rfl rfl)
  | reset =>
    obtain ⟨-, rfl⟩ := exec_reset_next h
    exact resetFor_countersSound _ _

/-! ### The indices -/

/-- Where the gating indices follow the time, they do so after it has moved together with them (`40_polynomial.md` R85). -/
theorem GatingSound.of_timeMoved {e : Nat} {s t : State} (h : GatingSound s) (moved : TimeMovedBy e s t) : GatingSound t where
  index4 := by rw [moved.p4, moved.now, h.index4, Nat.mod_add_mod]
  index5 := by rw [moved.p5, moved.now, h.index5, Nat.mod_add_mod]
  index9 := by rw [moved.p9, moved.now, h.index9, Nat.mod_add_mod]
  index17 := by rw [moved.p17, moved.now, h.index17, Nat.mod_add_mod]

/-- No table is empty (`00_scope.md` R5). -/
theorem polyLen_pos {n : Nat} (h : 0 < n) : 0 < polyLen n := Nat.sub_pos_of_lt (Nat.one_lt_two_pow h.ne')

theorem GatingSound.timeMoved_zero {s : State} (h : GatingSound s) : TimeMovedBy 0 s s :=
  .zero (h.index4 ▸ Nat.mod_lt _ (polyLen_pos (by decide))) (h.index5 ▸ Nat.mod_lt _ (polyLen_pos (by decide)))
    (h.index9 ▸ Nat.mod_lt _ (polyLen_pos (by decide))) (h.index17 ▸ Nat.mod_lt _ (polyLen_pos (by decide)))

/-- Every operation keeps the gating indices with the time: it moves both, neither, or starts both at 0. -/
theorem GatingSound.exec {i : Instr} {s t : State} (hs : GatingSound s) (h : exec i s = .next t) : GatingSound t := by
  by_cases hreset : i = .reset
  · subst hreset
    obtain ⟨-, rfl⟩ := exec_reset_next h
    exact ⟨rfl, rfl, rfl, rfl⟩
  · by_cases hrender : ∃ n, i = .render n
    · obtain ⟨n, rfl⟩ := hrender
      obtain ⟨e, moved⟩ := exec_render_timeMoved hs.timeMoved_zero h
      exact hs.of_timeMoved moved
    · exact hs.of_timeMoved (hs.timeMoved_zero.trans_untimed (exec_untimed hreset (fun n e => hrender ⟨n, e⟩) h))

theorem readIndex_lt {length : Nat} (h : 0 < length) (s : State) (index : Nat) : readIndex s index length < length := by
  unfold readIndex
  split
  · exact Nat.mod_lt _ h
  · exact h

/-- Every operation keeps the RANDOM indices in their tables: a read moves them modulo the table lengths
(`40_polynomial.md` R87). -/
theorem RandomSound.exec {i : Instr} {s t : State} (hs : RandomSound s) (h : exec i s = .next t) : RandomSound t := by
  by_cases hreset : i = .reset
  · subst hreset
    obtain ⟨-, rfl⟩ := exec_reset_next h
    exact resetFor_randomSound _ _
  · by_cases hread : i = .rRandom
    · subst hread
      rw [exec_rRandom, randomAdvance_eq] at h
      obtain rfl := Host.Outcome.next.inj h
      exact ⟨readIndex_lt (by decide) s s.r9, readIndex_lt (by decide) s s.r17, le_rfl⟩
    · have same := randomPart_of_exec hread hreset h
      obtain ⟨h9, h17, hlast⟩ : t.r9 = s.r9 ∧ t.r17 = s.r17 ∧ t.randLast = s.randLast := by simpa [randomPart] using same
      exact ⟨h9 ▸ hs.random9, h17 ▸ hs.random17, hlast ▸ hs.randLastPast.trans (exec_now_le hreset h)⟩

/-! ### Every operation and every step -/

/-- Every operation keeps the invariant. -/
theorem State.Inv.exec {i : Instr} {s t : State} (hinv : s.Inv) (h : exec i s = .next t) : t.Inv := by
  obtain ⟨control, settled⟩ := hinv.exec_control h
  exact .of_parts (exec_configured hinv.configured h) (hinv.exec_counters h) control (hinv.gatingSound.exec h)
    (hinv.randomSound.exec h) settled

/-- What the host does between two operations keeps the invariant: it touches its own side, KBCODE, and of SKSTAT any bit but the
transmitting bit (`44_serial.md` R177, `46_register_interface.md` R212). -/
theorem State.Inv.of_host {s : State} (hinv : s.Inv) (code : Byte) {status : Byte} (env : HostSide)
    (busy : status.getLsbD 1 = s.skstat.getLsbD 1) : ({ s with kbcode := code, skstat := status, env := env } : State).Inv := by
  have registers := hinv.controlSound.of_registers hinv.pendingEnabled (busy ▸ hinv.controlSound.serial)
  have control : ControlSound { s with kbcode := code, skstat := status, env := env } := registers.of_controlPart_eq rfl
  have settings : channelSettings { s with kbcode := code, skstat := status, env := env } = channelSettings s := rfl
  exact .of_parts (hinv.configured.of_channelSettings_eq settings)
    (hinv.countersSound.of_ch_eq rfl (State.ch_eq rfl rfl rfl rfl)) control
    ⟨hinv.index4, hinv.index5, hinv.index9, hinv.index17⟩ ⟨hinv.random9, hinv.random17, hinv.randLastPast⟩ hinv.settled

/-- The error bits stand above the transmitting bit (`10_state.md` R22). -/
theorem errors_above_busy : ∀ errors : BitVec 3, (errors ++ 0#5).getLsbD 1 = false := by decide

/-- Settles O12: an operation keeps the parts of the invariant one by one, and the host's own actions touch none of them. -/
theorem everyStepKeepsTheInvariant : Obligations.EveryStepKeepsTheInvariant := by
  intro s t hinv h
  obtain ⟨-, rfl⟩ | ⟨r, rest, i, -, -, hx⟩ | ⟨errors, rest, -, rfl⟩ | ⟨code, rest, -, rfl⟩ := step_cases h
  · exact hinv
  · exact (hinv.of_host s.kbcode { s.env with inbox := rest } rfl).exec hx
  · have busy : (s.skstat ||| (errors ++ 0#5)).getLsbD 1 = s.skstat.getLsbD 1 := by
      rw [BitVec.getLsbD_or, errors_above_busy, Bool.or_false]
    exact hinv.of_host s.kbcode { s.env with inbox := rest } busy
  · exact hinv.of_host code { s.env with inbox := rest } rfl

end Sys2Proof.Machine
end
